-- ==== Sys2Proof/Word.lean ====
section
/-! DEFINITION. The plain data the model is built from: words, the 512-byte row that is this hardware's
addressable cell (R26, R201), and the sparse table used for everything that is indexed. -/

namespace Sys2Proof

/-- A scalar register, an address, a counter value: 64 bits. -/
abbrev Word := BitVec 64

/-- A byte of a packet, a frame or an image. -/
abbrev Byte := BitVec 8

/-- A string of bytes, the byte at the lowest address first. -/
abbrev Bytes := List Byte

/-- One row of 512 bytes. Byte `i` is bits `8i + 7` down to `8i` (little-endian). -/
abbrev Row := BitVec 4096

/-- A table from numbers to values in which unlisted keys hold a default. Canonical form: keys strictly
rising and no entry equal to the default (`Sparse.wf` in `Machine/Sparse.lean`). -/
abbrev Sparse (α : Type) := List (Nat × α)

end Sys2Proof
end

