-- ==== Sys2Proof/Syntax.lean ====
section
/-! DEFINITION. The commands the block takes: one constructor per row of `spec/opcode_table.json`.

How the operands are read:

* A tile operation (`ctlLi t l`, `arrMm t l`, ...) is the event "the sequencer of logical tile `t` issues, on work
  list `l`, the operation its program counter names, and that operation is this one" (R164, R187). The fields of the
  operation are the bits of the program in the tile's scratchpad (R162, R166), so the command carries no copy of them.
* A Curator command (`cfgWrite n`, ...) is the event "Curator starts the accepted command number `n`, whose opcode is
  this one" (R299). Its parameters are those of the packet that was accepted.
* An event of the outside world carries what the outside world decides: a packet, a frame, a reading, a test's verdict.
  Temperatures are in sixteenths of a degree Celsius, voltages in mV, power in W, coolant flow in mL/min.
* An expiry (`peerLost`, `watchdogBite`, ...) is the event that the stated time has passed. -/

namespace Sys2Proof

/-- The bank a patrol, a write-back or a late check is about: physical tile and bank (R199, R200). -/
inductive BankId where
  /-- Scratchpad bank `b` (0-15) of physical tile `p`. -/
  | scr (p b : Nat)
  /-- Bank `b` (0-3) of the accumulator store of array `a` of physical tile `p`. -/
  | acc (p a b : Nat)
deriving DecidableEq, Repr

/-- An arbitrated resource of Table 12-1. -/
inductive ResId where
  /-- A scratchpad or accumulator bank port. -/
  | bank (b : BankId)
  /-- HBM3E channel `c`, 0-255. -/
  | hbm (c : Nat)
  /-- A die crossing: die, link of the die, and whether it leaves the die. -/
  | xing (die link : Nat) (out : Bool)
  /-- A mesh router output of physical tile `p`. -/
  | mesh (p out : Nat)
  /-- Causeway egress of port `n`. -/
  | cwy (n : Nat)
deriving DecidableEq, Repr

/-- The request header of Table 12-2. -/
structure ReqHdr where
  /-- true: class P. -/
  classP  : Bool
  /-- Remaining budget in nanoseconds. -/
  remain  : Nat
  overdue : Bool
  lock    : Bool
  unlock  : Bool
  emerg   : Bool
  source  : Nat
deriving DecidableEq, Repr

/-- What makes a request of an arbiter (Tables 12-1 and 12-3). -/
inductive Requester where
  /-- A broadcast-stream activation read or a weight-loader read. -/
  | operand
  /-- The sequencer's bundle fetch. -/
  | fetch
  /-- A close unit, the vector engine, or the concordance and merge unit. -/
  | engine
  /-- The internal stream path. -/
  | internal
  /-- ctl.ld, and Curator's and the command engine's own accesses. -/
  | service
  /-- The write-back of a corrected row. -/
  | writeBack
  /-- A credit request or grant, or a Causeway control frame. -/
  | control
  /-- Stream queue `q` of logical tile `t` for its started descriptor `j`, with that descriptor's BUDGET and CLASS (R227,
  R269). -/
  | stream (t q j : Nat)
  /-- The write of a row of window `n` at its owner, logical tile `t`, with what remained of the arriving row's budget. -/
  | window (t n : Nat)
  /-- An array's result write into the accumulator store. -/
  | result
  /-- The debug port: the JTAG port of a module whose debug fuse is blown (R267, R286). -/
  | debug
deriving DecidableEq, Repr

/-- How a request reaches an arbiter (R268, R269). -/
inductive ReqEntry where
  /-- At the first arbiter it enters: its requester, whether it is a read, LOCK, UNLOCK and SOURCE. -/
  | first (k : Requester) (read lock unlock : Bool) (source : Nat)
  /-- With the header it carries: request `k` of those under way between two arbiters. -/
  | crossed (k : Nat)
deriving DecidableEq, Repr

/-- What the read of a row from HBM or CXL reports about itself (Table 10-6, R354). -/
inductive ReadErr where
  | clean
  | corrected
  | uncorrectable
  | poison
deriving DecidableEq, Repr

/-- The MAC header around a Causeway frame in Ethernet mode (R313). -/
structure MacHdr where
  vlan      : Bool
  da        : BitVec 48
  sa        : BitVec 48
  etherType : BitVec 16
  /-- true: the FCS of the MAC frame checks. -/
  fcsOk     : Bool
deriving DecidableEq, Repr

/-- A frame as a port delivers it: the codewords the FEC corrected and could not correct, the MAC header in
Ethernet mode, and the bytes of the Causeway frame. -/
structure RxFrame where
  fecCorrected     : Nat
  fecUncorrectable : Nat
  mac              : Option MacHdr
  bytes            : Bytes
deriving DecidableEq, Repr

/-- What the tests of one tile found (R344, R352, R389). -/
structure TestResult where
  /-- Bad physical columns of arrays A0-A3: (array, column). -/
  badCols  : List (Nat × Nat)
  /-- Failing scratchpad rows: (bank, bank row). -/
  badRows  : List (Nat × Nat)
  /-- Failing accumulator rows: (array, bank, bank row). -/
  badAcc   : List (Nat × Nat × Nat)
  /-- The random-service cores that failed the known-answer test (R265), as a count. -/
  katFails : Nat
  /-- Another self-test failed. -/
  otherBad : Bool
deriving DecidableEq, Repr

/-- What phase 3 found: the test results of the physical tiles that showed a fault, and the dies whose x8 PHY block
failed (R358, R380). -/
structure BringUp where
  tiles   : List (Nat × TestResult)
  badPhys : List Nat
deriving DecidableEq, Repr

/-- What training in phase 4 reached: Arcade, the lanes of C0-C7 (port, spare lane) and the expanders behind X0-X3
(port, identifier, rows). -/
structure TrainResult where
  arcade    : Bool
  lanes     : List (Nat × Bool)
  expanders : List (Nat × Nat × Nat)
deriving DecidableEq, Repr

/-- The commands of the block, one constructor per row of the opcode table. -/
inductive Instr where
  /-- R170. Tile operation nop issues and does nothing. -/
  | nop (t l : Nat)
  /-- R189. Tile operation ctl.end ends its work list. -/
  | ctlEnd (t l : Nat)
  /-- R170. Tile operation ctl.li loads a sign-extended immediate into a scalar register at issue. -/
  | ctlLi (t l : Nat)
  /-- R170. Tile operation ctl.add writes xa + xb + IMM modulo 2^64 at issue. -/
  | ctlAdd (t l : Nat)
  /-- R169. Tile operation ctl.ld reads one 64-bit word of a row into a scalar register, interlocking it until the row is read. -/
  | ctlLd (t l : Nat)
  /-- R170. Tile operation ctl.br branches on a comparison of two scalar registers. -/
  | ctlBr (t l : Nat)
  /-- R170. Tile operation ctl.jmp jumps to a bundle index. -/
  | ctlJmp (t l : Nat)
  /-- R171. Tile operation ctl.info loads a device item such as a width or the tile number into a scalar register. -/
  | ctlInfo (t l : Nat)
  /-- R177. Tile operation ctl.dfind binary-searches a dispatch table for this tile's items. -/
  | ctlDfind (t l : Nat)
  /-- R178. Tile operation sync.wait holds its work list until a signal reaches a target. -/
  | syncWait (t l : Nat)
  /-- R178. A waiting sync.wait finds its signal condition met and its work list resumes. -/
  | syncWaitRelease (t l : Nat)
  /-- R178. Tile operation sync.add adds an immediate to a signal. -/
  | syncAdd (t l : Nat)
  /-- R178. Tile operation sync.set sets a signal to an immediate. -/
  | syncSet (t l : Nat)
  /-- R172. Tile operation arr.mm issues a dense product to the arrays in its mask. -/
  | arrMm (t l : Nat)
  /-- R176. Tile operation sp.mm issues a sparse, masked, predicted or dispatched product. -/
  | spMm (t l : Nat)
  /-- R145. Tile operation acc.open opens an accumulation group without computing. -/
  | accOpen (t l : Nat)
  /-- R155. Tile operation acc.close converts a group to its output format and frees it. -/
  | accClose (t l : Nat)
  /-- R153. Tile operation acc.rec writes the state records of all 32 groups of an array to a row. -/
  | accRec (t l : Nat)
  /-- R153. Tile operation acc.adopt opens a group from a saved record at a named base row. -/
  | accAdopt (t l : Nat)
  /-- R97. Tile operation conc.and combines two bitmap rows by AND, optionally writing the result. -/
  | concAnd (t l : Nat)
  /-- R97. Tile operation conc.or combines two bitmap rows by OR, optionally writing the result. -/
  | concOr (t l : Nat)
  /-- R97. Tile operation conc.andn combines two bitmap rows by AND-NOT, optionally writing the result. -/
  | concAndn (t l : Nat)
  /-- R97. Tile operation conc.pop counts the present bits of a row into a scalar register. -/
  | concPop (t l : Nat)
  /-- R97. Tile operation conc.scan counts present bits over consecutive rows into a scalar register. -/
  | concScan (t l : Nat)
  /-- R101. Tile operation conc.match emits match entries for a combined row to rows and optionally a stream queue. -/
  | concMatch (t l : Nat)
  /-- R116. Tile operation mrg.run merges up to 12 sparse partials into one output tensor. -/
  | mrgRun (t l : Nat)
  /-- R127. Tile operation disp.run plans the division of a sparse operand's O-blocks and writes a dispatch table. -/
  | dispRun (t l : Nat)
  /-- R181. Vector operation vec.ld loads a scratchpad row into a vector register. -/
  | vecLd (t l : Nat)
  /-- R181. Vector operation vec.st writes a vector register to a row whole. -/
  | vecSt (t l : Nat)
  /-- R182. Vector operation vec.add adds two registers element by element. -/
  | vecAdd (t l : Nat)
  /-- R182. Vector operation vec.sub subtracts two registers element by element. -/
  | vecSub (t l : Nat)
  /-- R182. Vector operation vec.mul multiplies two registers element by element. -/
  | vecMul (t l : Nat)
  /-- R182. Vector operation vec.fma forms va × vb + vd with one rounding. -/
  | vecFma (t l : Nat)
  /-- R437. Vector operation vec.max takes the element-wise maximum. -/
  | vecMax (t l : Nat)
  /-- R437. Vector operation vec.min takes the element-wise minimum. -/
  | vecMin (t l : Nat)
  /-- R437. Vector operation vec.cmp writes all-ones or zero per element by a comparison. -/
  | vecCmp (t l : Nat)
  /-- R437. Vector operation vec.sel selects per element between two registers by a mask register. -/
  | vecSel (t l : Nat)
  /-- R182. Vector operation vec.exp computes e^x rounded once. -/
  | vecExp (t l : Nat)
  /-- R182. Vector operation vec.rcp computes 1/x rounded once. -/
  | vecRcp (t l : Nat)
  /-- R182. Vector operation vec.rsq computes 1/√x rounded once. -/
  | vecRsq (t l : Nat)
  /-- R183. Vector operation vec.rsum sums a register's elements in the canonical pairwise order. -/
  | vecRsum (t l : Nat)
  /-- R183. Vector operation vec.rmax takes the maximum of a register's elements in pairwise order. -/
  | vecRmax (t l : Nat)
  /-- R181. Vector operation vec.bcast copies one element to every element of the destination. -/
  | vecBcast (t l : Nat)
  /-- R184. Vector operation vec.cmask sets scores whose key exceeds the query to −∞. -/
  | vecCmask (t l : Nat)
  /-- R438. Vector operation vec.cvt converts a register between formats under PART placement. -/
  | vecCvt (t l : Nat)
  /-- R259. Vector operation vec.rand fills each lane with keystream bytes at its logical index. -/
  | vecRand (t l : Nat)
  /-- R185. Vector operation vec.join adds rows of partials to rows or into a group. -/
  | vecJoin (t l : Nat)
  /-- R226. Tile operation str.go releases descriptors of a stream queue's ring. -/
  | strGo (t l : Nat)
  /-- R244. Tile operation str.cancel cancels a stream queue. -/
  | strCancel (t l : Nat)
  /-- R192. Compatibility operation c.nop does nothing. -/
  | cNop (t l : Nat)
  /-- R192. Compatibility operation c.end ends the work list. -/
  | cEnd (t l : Nat)
  /-- R192. Compatibility operation c.li loads an immediate into a scalar register. -/
  | cLi (t l : Nat)
  /-- R192. Compatibility operation c.add adds scalar registers and an immediate. -/
  | cAdd (t l : Nat)
  /-- R192. Compatibility operation c.br branches on a comparison. -/
  | cBr (t l : Nat)
  /-- R192. Compatibility operation c.jmp jumps. -/
  | cJmp (t l : Nat)
  /-- R192. Compatibility operation c.info reads a device item 0–7. -/
  | cInfo (t l : Nat)
  /-- R192. Compatibility operation c.wait waits on a signal as sync.wait. -/
  | cWait (t l : Nat)
  /-- R192. Compatibility operation c.sadd adds to a signal as sync.add. -/
  | cSadd (t l : Nat)
  /-- R193. Compatibility operation c.mm computes an output-stationary 64 × 64 tile in each named array. -/
  | cMm (t l : Nat)
  /-- R193. Compatibility operation c.drain converts and writes an output tile into the accumulator store. -/
  | cDrain (t l : Nat)
  /-- R192. A compatibility vector operation 0x40–0x4F acts as the vec operation of the same code. -/
  | cVec (t l : Nat)
  /-- R192. Compatibility operation c.sgo releases stream descriptors as str.go. -/
  | cSgo (t l : Nat)
  /-- R192. Compatibility operation c.scancel cancels a stream queue as str.cancel. -/
  | cScancel (t l : Nat)
  /-- R167. An issued operation reaches its completion point, incrementing its signal and writing its completion entry as required. -/
  | operationComplete (t k : Nat)
  /-- R53. A soft-start or stop ramp phase of ARRAY_RAMP_STEPS/8 steps ends and the next level begins or the ramp finishes. -/
  | rampPhaseEnd (t a : Nat)
  /-- R189. Every enabled work list has ended and every issued operation completed, so the completion header is written. -/
  | launchEnd (t : Nat)
  /-- R231. A stream descriptor of kind COPY starts, is checked and issues its row transfers. -/
  | strCopy (t q : Nat)
  /-- R233. A stream descriptor of kind GATHER starts, counts its bitmap and moves the selected rows. -/
  | strGather (t q : Nat)
  /-- R234. A stream descriptor of kind MATCH starts and moves the block rows named by match entries. -/
  | strMatch (t q : Nat)
  /-- R235. A WINCTL descriptor with WOP OPEN opens a window of this tile. -/
  | winctlOpen (t q : Nat)
  /-- R235. A WINCTL descriptor with WOP CLOSE closes a window of this tile. -/
  | winctlClose (t q : Nat)
  /-- R220. A WINCTL descriptor with WOP RETURN returns credits to a window, serving pending requests. -/
  | winctlReturn (t q : Nat)
  /-- R235. A WINCTL descriptor with WOP READ writes the live window entry to a row. -/
  | winctlRead (t q : Nat)
  /-- R240. A row read by a stream transfer arrives in the reorder buffer and its destination write issues in order. -/
  | rowReadReturn (t q k : Nat) (hbmErr : ReadErr)
  /-- R240. A destination write completes at its tier's point, and the descriptor ends after its last write. -/
  | rowWriteComplete (t q : Nat)
  /-- R244. Every outstanding read of a cancelled queue has arrived, so started descriptors end CANCELLED and the queue goes IDLE. -/
  | cancelComplete (t q : Nat)
  /-- R245. A cancellation reaches 8 µs and abandons reads still outstanding. -/
  | cancelTimeout (t q : Nat)
  /-- R219. A credit request arrives at the owner window unit and is answered from the pool and ledger. -/
  | creditRequest (k : Nat)
  /-- R242. A credit grant arrives at the writer's credit account, adding credits or replacing the generation. -/
  | creditGrant (k : Nat)
  /-- R222. A window write row arrives at the owner tile over the mesh and is checked, written or dropped. -/
  | windowRowArrival (k : Nat)
  /-- R222. A WWR message from the companion delivers one window write row under the window checks. -/
  | arcadeWwr (t w gen off : Nat) (row : Row)
  /-- R259. A random-service core refills a lane-slot buffer with the next block in a step no demand wants. -/
  | rngRefill (t slot : Nat)
  /-- R271. A request reaches an arbiter and is granted or parked by rank. -/
  | arbiterRequest (r : ResId) (a : ReqEntry)
  /-- R272. A holder releases a resource and the arbiter sends a recall grant to the top pending request. -/
  | arbiterRelease (r : ResId)
  /-- R270. A pending request's deadline passes and it becomes overdue. -/
  | deadlinePassed (r : ResId) (i : Nat)
  /-- R279. An arbiter watchdog expires, ends the holder's grant and lock and grants the next request. -/
  | watchdogBite (r : ResId) (silent : Bool)
  /-- R205. A bank patrol reads and checks one row in a free access at most once per 4,096 steps. -/
  | patrolRead (b : BankId)
  /-- R203. A bank writes a corrected row back in its next free access. -/
  | eccWriteBack (b : BankId)
  /-- R204. After a same-bank combine, each operand row is read through the checked path in a free access. -/
  | combineLateCheck (b : BankId)
  /-- R276. An HBM channel's refresh engine takes the channel as emergency requester. -/
  | hbmRefresh (c : Nat)
  /-- R277. A service strip detects loss of the reference clock and runs the interval counter from the on-die oscillator. -/
  | refClockLoss (d : Nat)
  /-- R277. The reference clock returns and the interval counter runs from it again. -/
  | refClockReturn (d : Nat)
  /-- R295. A CMD message arrives on Arcade and the receipt responder checks, queues and acknowledges it. -/
  | arcadeCmd (hdr : BitVec 512) (payload : Bytes)
  /-- R295. A command arrives by I3C private write and is checked, queued and announced by in-band interrupt. -/
  | i3cPrivateWrite (hdr : BitVec 512) (payload : Bytes)
  /-- R286. A command arrives in the JTAG command data register on a module with the debug fuse blown. -/
  | jtagCommand (hdr : BitVec 512) (payload : Bytes)
  /-- R288. A CTL message writes a 64-bit word of the Arcade control block, or is ignored if it would be invalid; without
  a value it is the CTL read of that word (Table 13-3). -/
  | arcadeCtlWrite (w : Nat) (v : Option Word)
  /-- R290. A snoop of a companion line arrives and is answered Invalid or with data. -/
  | arcadeSnp (line : Nat)
  /-- R289. The Arcade link retrains, clearing the reply ring registers and withdrawing every aperture. -/
  | arcadeRetrain
  /-- R289. A reply that waited on a full reply ring is written once a slot frees. -/
  | replyRingWrite
  /-- R319. A Causeway CMD frame is accepted in sequence and its command passes receipt, or a duplicate is answered from the store. -/
  | cmdFrame (p : Nat) (f : RxFrame)
  /-- R319. A Causeway RPL frame delivers a reply to a command this device sent. -/
  | rplFrame (p : Nat) (f : RxFrame)
  /-- R324. A Causeway data frame arrives, lost rows are settled and its rows are checked against the window. -/
  | dataFrame (p : Nat) (f : RxFrame)
  /-- R324. A TALLY arrives and settles any rows the owner has not received. -/
  | tallyFrame (p : Nat) (f : RxFrame)
  /-- R320. An ACK frame arrives and acknowledges sequenced frames of its conversation. -/
  | ackFrame (p : Nat) (f : RxFrame)
  /-- R331. A HELLO frame arrives and its digest is compared and kept. -/
  | helloFrame (p : Nat) (f : RxFrame)
  /-- R329. A LANE frame arrives and the port moves its traffic to the named lane. -/
  | laneFrame (p : Nat) (f : RxFrame)
  /-- R331. A lane that has sent no control frame for 100 µs sends a HELLO. -/
  | helloSend (p : Nat) (lane : Bool)
  /-- R320. A frame unacknowledged for 12 µs causes every unacknowledged frame of the conversation to be resent. -/
  | controlRetry (p house : Nat)
  /-- R321. A frame unacknowledged after 15 resends makes the peer lost and resets the conversation. -/
  | peerLost (p house : Nat)
  /-- R318. A conversation idle for 10 ms with nothing unacknowledged is freed. -/
  | conversationFree (p house : Nat)
  /-- R329. The lane in use loses PCS block lock for 1 ms and Curator switches the port to its other lane. -/
  | laneLockLoss (p : Nat)
  /-- R329. At each second, uncorrectable codewords above CWY_SPARE_BER make Curator switch lanes. -/
  | laneBerCheck (p bad : Nat)
  /-- R357. The 100 ms PRBS31 test of a switched-away lane ends and the lane is kept or retired. -/
  | laneTestDone (p : Nat) (lane : Bool) (clean : Bool)
  /-- R359. A CXL expander's link goes down and its range becomes unbacked. -/
  | cxlLinkDown (x e : Nat)
  /-- R359. An attached expander's link trains and Curator backs it at the lowest free range. -/
  | cxlExpanderAttach (x e rows : Nat)
  /-- R306. The active Curator writes its heartbeat row in the standby every 8 µs. -/
  | curatorHeartbeat
  /-- R306. The standby sees no heartbeat for 40 µs and takes over as active Curator. -/
  | standbyTakeover
  /-- R343. A draining tile's launch has ended and its queues are idle, so its windows close and it becomes DRAINED. -/
  | tileDrained (t : Nat)
  /-- R344. A tile's recalibration ends, widths are presented again and the tile returns to DRAINED. -/
  | recalDone (t : Nat) (res : TestResult)
  /-- R291. Every transfer issued to a deleted aperture has completed and cfg.aperture_del draws its final reply. -/
  | apertureDrained (a : Nat)
  /-- R341. Curator writes pending Inventory records to the Holdings image no later than 60 s after each was made. -/
  | inventoryFlush (fail1 fail2 : Bool)
  /-- R366. A leaf whose conversation with the cast source was reset sends cast.subscribe again within 1 ms and every 100 ms while refused. -/
  | castResubscribe (quarter : Nat)
  /-- R337. A collective phase not completed within COLL_TIMEOUT_MS aborts at the member. -/
  | collPhaseTimeout (id : Nat)
  /-- R336. A child's command for a collective not begun locally is answered CANCELLED after COLL_TIMEOUT_MS. -/
  | collHeldTimeout (id : Nat)
  /-- R337. An aborted collective's entry is freed after COLL_TIMEOUT_MS. -/
  | collEntryExpiry (id : Nat)
  /-- R403. The input rises above 38 V and the housekeeping converter starts, with inrush limited. -/
  | inputRise (mv : Nat)
  /-- R403. The housekeeping rails reach regulation and PWR_GOOD rises. -/
  | pwrGoodRise
  /-- R406. The input falls below 36 V and the module stops all work and switches off its rails. -/
  | inputLoss (mv : Nat)
  /-- R403. The input exceeds 62 V and every rail is switched off within 10 µs. -/
  | inputOvervoltage (mv : Nat)
  /-- R406. RESET_N falls and the module stops all work and switches off its core, HBM and PHY rails. -/
  | resetNFall (us : Nat)
  /-- R378. RESET_N rises and start-up begins at phase 1 with both strips self-testing. -/
  | resetNRise
  /-- R382. Phase 1 ends with D0's verdict and the election of a service strip. -/
  | stripSelfTest (d0 : Option Bool) (d7 : Bool)
  /-- R382. No verdict from D0 within 3 ms, so D7's strip is elected if it passed. -/
  | d0VerdictTimeout (d7 : Bool)
  /-- R387. Phase 2 reads and verifies the directory, Inventory, Curator image and settings from flash. -/
  | holdingsRead
  /-- R380. Phase 3 sets rails, trains crossings and HBM, tests and maps tiles and loads Curator. -/
  | dieBringUp (res : BringUp)
  /-- R380. Phase 4 sets the live configuration, computes the digest, trains links and sets CURATOR_READY. -/
  | curatorStart (up : TrainResult)
  /-- R409. Every 100 µs Curator compares input power with the effective cap and lowers or raises rails and rations. -/
  | powerInterval (watts : Nat) (temps : List Int)
  /-- R411. Input power over 13.2 kW averaged over 10 µs makes the hardware limiter set every ration to 8/16. -/
  | peakLimit (watts : Nat)
  /-- R411. Input power above the effective cap for 10 ms makes the limiter hold every die at 8/16. -/
  | capHold (watts : Nat)
  /-- R411. Input power below 12 kW for 100 µs, or at the cap, releases the limiter's ration. -/
  | limiterRelease (watts : Nat)
  /-- R412. A die above 100 °C has its VCORE lowered by 5 mV each 1 ms. -/
  | dieThrottle (d : Nat) (temp : Int)
  /-- R412. A die above 105 °C is rationed to 8/16 and ALERT_N is asserted. -/
  | dieOverTemp (d : Nat) (temp : Int)
  /-- R412. A stack above 85 °C doubles refresh, and above 95 °C holds its two dies at 8/16. -/
  | stackHot (m : Nat) (temp : Int)
  /-- R413. A die sensor at 110 °C or a stack at 105 °C switches off all rails and latches THERM_TRIP_N. -/
  | thermalTrip (onDie : Bool) (i : Nat) (temp : Int)
  /-- R414. Coolant flow falls below 3 L/min and ALERT_N is asserted. -/
  | lowFlow (mlpm : Nat)
  /-- R303. Command sys.nop replies with CFG_GEN. -/
  | sysNop (n : Nat)
  /-- R303. Command sys.info reports house number, stepping, Curator version, CFG_GEN and tiles presented. -/
  | sysInfo (n : Nat)
  /-- R303. Command sys.status reports Curator tiles, running launches and queued commands. -/
  | sysStatus (n : Nat)
  /-- R378. Command sys.reset replies and then makes a warm or full reset. -/
  | sysReset (n : Nat)
  /-- R408. Command sys.power reads or sets the live power cap. -/
  | sysPower (n : Nat)
  /-- R434. Command sys.telemetry returns a physical reading for a scope. -/
  | sysTelemetry (n : Nat)
  /-- R298. Command sys.buf_read returns 16 bytes of the I3C result buffer. -/
  | sysBufRead (n : Nat)
  /-- R396. Command cfg.read returns the live and staged value of a settings key. -/
  | cfgRead (n : Nat)
  /-- R396. Command cfg.write stages a settings value. -/
  | cfgWrite (n : Nat)
  /-- R377. Command cfg.commit applies staged values as a new configuration generation. -/
  | cfgCommit (n : Nat)
  /-- R397. Command cfg.discard drops every staged value. -/
  | cfgDiscard (n : Nat)
  /-- R291. Command cfg.aperture_add registers a companion memory aperture. -/
  | cfgApertureAdd (n : Nat)
  /-- R291. Command cfg.aperture_del withdraws an aperture at once, making its rows unbacked. -/
  | cfgApertureDel (n : Nat)
  /-- R301. Command prog.load copies program rows to each named tile and checks them. -/
  | progLoad (n : Nat)
  /-- R303. Command prog.put writes payload rows into a tile's scratchpad. -/
  | progPut (n : Nat)
  /-- R303. Command prog.copy copies rows between device addresses with strides of 1. -/
  | progCopy (n : Nat)
  /-- R301. Command prog.launch delivers a launch record to every named tile, starting all or none. -/
  | progLaunch (n : Nat)
  /-- R246. Command prog.cancel cancels each named tile's launch of a given LAUNCH_ID. -/
  | progCancel (n : Nat)
  /-- R214. Command win.open opens a window on a tile. -/
  | winOpen (n : Nat)
  /-- R216. Command win.close closes a window, cancelling pending requests. -/
  | winClose (n : Nat)
  /-- R220. Command win.return returns credits to a window. -/
  | winReturn (n : Nat)
  /-- R212. Command win.read writes a window entry to a result row. -/
  | winRead (n : Nat)
  /-- R302. Command win.credit requests credits for a source and replies with each grant. -/
  | winCredit (n : Nat)
  /-- R224. Command stream.qread writes a queue register to a result row. -/
  | streamQread (n : Nat)
  /-- R225. Command stream.qwrite configures a stream queue register while idle. -/
  | streamQwrite (n : Nat)
  /-- R226. Command stream.go releases descriptors of a queue's ring. -/
  | streamGo (n : Nat)
  /-- R244. Command stream.cancel cancels a stream queue. -/
  | streamCancel (n : Nat)
  /-- R372. Command ctx.save writes the logical state of a range of tiles as a context. -/
  | ctxSave (n : Nat)
  /-- R375. Command ctx.restore checks a context and restores each tile's rows, groups, queues, windows and cursors. -/
  | ctxRestore (n : Nat)
  /-- R374. Command ctx.check checks a context without restoring it. -/
  | ctxCheck (n : Nat)
  /-- R254. Command rng.read writes the random-service state to a result row. -/
  | rngRead (n : Nat)
  /-- R255. Command rng.write changes SEED and SALT, deriving and loading a new key. -/
  | rngWrite (n : Nat)
  /-- R430. Command ctr.read returns the saturating sum of a counter over a scope. -/
  | ctrRead (n : Nat)
  /-- R431. Command ctr.snapshot writes every non-zero counter instance of a scope. -/
  | ctrSnapshot (n : Nat)
  /-- R432. Command ctr.clear sets counter instances of a scope to zero. -/
  | ctrClear (n : Nat)
  /-- R338. Command inv.read writes the live Inventory image. -/
  | invRead (n : Nat)
  /-- R343. Command inv.drain sets a tile DRAINING. -/
  | invDrain (n : Nat)
  /-- R344. Command inv.recal sets a drained tile to RECAL and starts its tests. -/
  | invRecal (n : Nat)
  /-- R346. Command inv.retire_tile replaces a drained tile with a spare and migrates its state. -/
  | invRetireTile (n : Nat)
  /-- R345. Command inv.present returns a drained tile to IN_SERVICE. -/
  | invPresent (n : Nat)
  /-- R353. Command inv.retire_row retires a scratchpad or accumulator row to a spare. -/
  | invRetireRow (n : Nat)
  /-- R356. Command inv.relocate relocates the HBM page holding an address. -/
  | invRelocate (n : Nat)
  /-- R341. Command inv.record writes pending retirement records to the Holdings Inventory. -/
  | invRecord (n : Nat) (fail1 fail2 : Bool)
  /-- R361. Command cast.subscribe registers a leaf with a quarter's cast source and opens window 15. -/
  | castSubscribe (n : Nat)
  /-- R367. Command cast.unsubscribe ends a cast subscription. -/
  | castUnsubscribe (n : Nat)
  /-- R367. Command cast.status reports a leaf's or source's cast state. -/
  | castStatus (n : Nat)
  /-- R368. Command takeover.offer checks that a hot spare can take a failed house and probes it. -/
  | takeoverOffer (n : Nat)
  /-- R369. Command takeover.assume copies the cast generation, takes the failed house number and announces it. -/
  | takeoverAssume (n : Nat)
  /-- R370. Command takeover.announce edits the live routing table for a moved house number. -/
  | takeoverAnnounce (n : Nat)
  /-- R394. Command upd.stage writes image bytes into a staging region. -/
  | updStage (n : Nat) (fail1 fail2 : Bool)
  /-- R392. Command upd.verify checks a staged image under the image checks. -/
  | updVerify (n : Nat)
  /-- R394. Command upd.activate installs a verified Curator image or settings block. -/
  | updActivate (n : Nat) (fail1 fail2 : Bool)
  /-- R394. Command upd.status reports bytes staged and whether verified. -/
  | updStatus (n : Nat)
  /-- R401. Command attest.report writes a signed attestation report row. -/
  | attestReport (n : Nat)
  /-- R400. Command attest.certs writes the identity certificate chain. -/
  | attestCerts (n : Nat)
  /-- R312. Command link.status reports a port's state. -/
  | linkStatus (n : Nat)
  /-- R330. Command link.spare switches a Causeway port to a named lane. -/
  | linkSpare (n : Nat)
  /-- R333. Command link.quarantine sets or clears a port's quarantine. -/
  | linkQuarantine (n : Nat)
  /-- R332. Command link.digest returns the last digest received on a port. -/
  | linkDigest (n : Nat)
  /-- R336. Command link.coll_begin runs the agreement phase of a collective up the tree. -/
  | linkCollBegin (n : Nat)
  /-- R336. Command link.coll_ready runs the barrier before data moves. -/
  | linkCollReady (n : Nat)
  /-- R336. Command link.coll_end runs the barrier after data and frees the collective entry. -/
  | linkCollEnd (n : Nat)
  /-- R412. A die falls to 100 °C or less, or a stack to 90 °C or less, and the 8/16 ration and ALERT_N it caused are released. -/
  | overTemperatureEnd (onDie : Bool) (i : Nat) (temp : Int)
  /-- R414. Coolant flow rises back to 3 L/min or more and the low-flow assertion of ALERT_N ends. -/
  | flowRestored (mlpm : Nat)
  /-- R420. The 50 V input leaves or re-enters 40–60 V while above 36 V and at or below 62 V, asserting or releasing ALERT_N. -/
  | inputOutOfRange (mv : Nat)
  /-- R403. A housekeeping rail leaves regulation and PWR_GOOD falls at once. -/
  | railLeavesRegulation
  /-- R383. The elected service strip fails while in use, its contacts stop working until a full reset, and Curator reports the loss over Arcade. -/
  | stripFailure
  /-- R312. A Causeway lane finishes training at run time, so the port becomes UP (or its spare SPARE_READY) and held control frames can leave. -/
  | portTrainingDone (p : Nat) (lane : Bool)
deriving DecidableEq, Repr

end Sys2Proof
end

