-- ==== Sys2Proof/Decode.lean ====
section
/-! DEFINITION. The command that a word spells by the bits of the opcode table. No row of the table gives bits: the
spec gives the block's commands no common encoding, so no word spells one. (The encodings the spec does give, of
packets, bundles, descriptors and frames, are read where the commands that carry them are given their meaning.) -/

namespace Sys2Proof

/-- No row of the opcode table gives bits, so there is nothing to decode. Log entry 9: DESIGN CHOICE. -/
def decodeTableWord (_nbits _w : Nat) : Option Instr := none

end Sys2Proof
end

