-- ==== Sys2Proof/Config.lean ====
section
/-! DEFINITION. What an implementation fixes and the spec does not: the free values of the model. Each is a constant
without a body, so no proof can see what it is (log entry 3). A fresh value is drawn by applying one to the plain
counter `State.free` (log entry 2). -/

namespace Sys2Proof.Config

/-- What the SECDED decoder makes of a codeword with these sensed-wrong bits, three or more: none when it reports the
codeword uncorrectable, or the bit it flips (R203: it may take such a codeword for one with a single-bit error). -/
opaque eccDecode : List Nat → Option Nat

/-- A telemetry reading that no command of the table delivers to the block: item, scope, draw (R434, Table 18-5). -/
opaque reading : Nat → Nat → Nat → Nat

/-- The age of a telemetry reading in microseconds, by draw (R434). -/
opaque age : Nat → Nat

/-- A choice among equals that the spec leaves open, by draw. -/
opaque choice : Nat → Nat

/-- The per-signature number of an ECDSA signature, by draw (R390 leaves it to the signer). -/
opaque nonce : Nat → Nat

/-- Whether a block-column whose scores hold a NaN is predicted: by its scores and the threshold (R134). -/
opaque nanScore : List Nat → Nat → Bool

/-- Whether a pair whose bound is a NaN is missed, outside MAKEUP: by the bound and the threshold (R136). -/
opaque nanBound : Nat → Nat → Bool

/-- The answer of ctl.dfind on a table whose entries are not in order: by the TILE fields, the tile that searches, and 0 for XD or
1 for XC (R177). -/
opaque dfind : List Nat → Nat → Nat → Nat

/-- Contents of positions of an output block beyond the dimensions of its tensor: by the output's values and the position, so
that they are the same on every run (R2, R109). -/
opaque edge : List Nat → Nat → Nat

/-- A status or field that the spec leaves unstated, by draw. -/
opaque unstated : Nat → Nat

/-- The row of the standby's scratchpad, above its image, that the heartbeat is written to (R306 names none). -/
opaque heartbeatRow : Nat

/-- Contents of positions that a written row holds and the spec gives no contents for: by draw and position. -/
opaque padding : Nat → Nat → Nat

/-- The physical tile whose unit a requester identity SOURCE names, when it names one (Table 12-2 gives no layout). -/
opaque sourceTile : Nat → Option Nat

end Sys2Proof.Config
end

