-- ==== Sys2Proof/Machine/Sparse.lean ====
section
/-! DEFINITION. Reading and writing sparse tables, and list helpers. -/

namespace Sys2Proof.Machine

/-- The value at key `k`: the listed one, or the default `d`. -/
def Sparse.get {α : Type} (d : α) : Sparse α → Nat → α
  | [], _ => d
  | (k', v) :: m, k => if k' = k then v else Sparse.get d m k

/-- The table without key `k`. -/
def Sparse.erase {α : Type} : Sparse α → Nat → Sparse α
  | [], _ => []
  | (k', v) :: m, k => if k' = k then Sparse.erase m k else (k', v) :: Sparse.erase m k

/-- The table with `v` listed at key `k`, before every greater key; `k` must not be listed. -/
def Sparse.insert {α : Type} : Sparse α → Nat → α → Sparse α
  | [], k, v => [(k, v)]
  | (k', v') :: m, k, v => if k < k' then (k, v) :: (k', v') :: m else (k', v') :: Sparse.insert m k v

/-- Writing keeps the canonical form: the default is not listed. -/
def Sparse.set {α : Type} [DecidableEq α] (d : α) (m : Sparse α) (k : Nat) (v : α) : Sparse α :=
  if v = d then Sparse.erase m k else Sparse.insert (Sparse.erase m k) k v

/-- Rewrites the value at one key. -/
def Sparse.modify {α : Type} [DecidableEq α] (d : α) (m : Sparse α) (k : Nat) (f : α → α) : Sparse α :=
  Sparse.set d m k (f (Sparse.get d m k))

/-- Every key of `m` lies above `b`, the keys rise, and no entry is the default. -/
def Sparse.wfFrom {α : Type} [DecidableEq α] (d : α) : Nat → Sparse α → Bool
  | _, [] => true
  | b, (k, v) :: m => decide (b ≤ k) && decide (v ≠ d) && Sparse.wfFrom d (k + 1) m

/-- The canonical form: keys strictly rising, no entry equal to the default. -/
def Sparse.wf {α : Type} [DecidableEq α] (d : α) (m : Sparse α) : Bool := Sparse.wfFrom d 0 m

/-- Rewrites every listed value, keeping the canonical form. -/
def Sparse.mapVals {α : Type} [DecidableEq α] (d : α) (m : Sparse α) (f : α → α) : Sparse α :=
  (m.map (fun e => (e.1, f e.2))).filter (fun e => decide (e.2 ≠ d))

/-- Keys `k` with `f k` listed. -/
def Sparse.filterKeys {α : Type} (m : Sparse α) (f : Nat → Bool) : Sparse α := m.filter (fun e => f e.1)

/-- `f 0, f 1, …, f (n - 1)`. -/
def tabulate {α : Type} (n : Nat) (f : Nat → α) : List α := (List.range n).map f

/-- `lo, lo + 1, …`, `n` numbers. -/
def span (lo n : Nat) : List Nat := (List.range n).map (fun i => lo + i)

/-- Runs `f` over the numbers below `n`, in ascending order. -/
def loop {β : Type} (n : Nat) (init : β) (f : β → Nat → β) : β := (List.range n).foldl f init

/-- The quotient rounded up. -/
def cdiv (a b : Nat) : Nat := (a + b - 1) / b

/-- The list without its element number `k`. -/
def dropAt {α : Type} (l : List α) (k : Nat) : List α := l.take k ++ l.drop (k + 1)

/-- The list with its element number `k` rewritten. -/
def modifyAt {α : Type} (l : List α) (k : Nat) (f : α → α) : List α :=
  match l[k]? with
  | some x => l.take k ++ f x :: l.drop (k + 1)
  | none => l

/-- Rewrites the first element that meets `p`. -/
def modifyFirst {α : Type} (p : α → Bool) (f : α → α) : List α → List α
  | [] => []
  | x :: l => if p x then f x :: l else x :: modifyFirst p f l

/-- The least number below `n` that meets `p`. -/
def findBelow (p : Nat → Bool) (n : Nat) : Option Nat := (List.range n).find? p

end Sys2Proof.Machine
end

