-- ==== Sys2Proof/Machine/Bits.lean ====
section
/-! DEFINITION. Bit fields, rows and byte strings, CRC-32C (R89 and every other record that carries one), CRC-32 of a
MAC frame, SHA-384 (FIPS 180-4, R390) and the ChaCha8 block (R251). -/

namespace Sys2Proof.Machine

/-- Bits `lo + w - 1` down to `lo` of `x`. -/
def fld (x lo w : Nat) : Nat := (x >>> lo) % 2 ^ w

/-- One bit of `x`. -/
def bit (x i : Nat) : Bool := (x >>> i) % 2 == 1

/-- `v` placed in `w` bits from bit `lo` upward, to be added into a record. -/
def put (lo w v : Nat) : Nat := (v % 2 ^ w) <<< lo

/-- The sum of the fields `(lo, width, value)`. -/
def pack (fs : List (Nat × Nat × Nat)) : Nat := fs.foldl (fun a f => a + put f.1 f.2.1 f.2.2) 0

/-- The `w`-bit field read as two's complement. -/
def signed (w x : Nat) : Int := if x % 2 ^ w < 2 ^ (w - 1) then (x % 2 ^ w : Nat) else ((x % 2 ^ w : Nat) : Int) - (2 ^ w : Nat)

/-- An integer reduced modulo 2^w. -/
def wrap (w : Nat) (v : Int) : Nat := (v % ((2 ^ w : Nat) : Int)).toNat

/-- `x` with bits `lo + w - 1` down to `lo` replaced by `v`. -/
def setFld (x lo w v : Nat) : Nat :=
  x % 2 ^ lo + put lo w v + (x >>> (lo + w)) <<< (lo + w)

def b2n (b : Bool) : Nat := if b then 1 else 0

/-- Number of set bits among the lowest `n`. -/
def popcount : Nat → Nat → Nat
  | 0, _ => 0
  | n + 1, x => x % 2 + popcount n (x / 2)

/-- Number of bits needed for `x`: 0 for 0. -/
def bitLen (x : Nat) : Nat := if x = 0 then 0 else Nat.log2 x + 1

/-- Positions of the set bits among the lowest `n`, ascending. -/
def setBits (n x : Nat) : List Nat := (List.range n).filter (fun i => bit x i)

/-- A row from a number: the 512 bytes, byte 0 least significant. -/
def row (x : Nat) : Row := BitVec.ofNat 4096 x

/-- A byte string as a number, byte 0 least significant. -/
def natOfBytes : Bytes → Nat
  | [] => 0
  | b :: bs => b.toNat + 256 * natOfBytes bs

/-- The lowest `n` bytes of `x`. -/
def bytesOfNat : Nat → Nat → Bytes
  | 0, _ => []
  | n + 1, x => BitVec.ofNat 8 (x % 256) :: bytesOfNat n (x / 256)

/-- A byte string as a number, byte 0 most significant. -/
def natOfBytesBE (b : Bytes) : Nat := b.foldl (fun a x => a * 256 + x.toNat) 0

/-- `n` bytes of `x`, the most significant first. -/
def bytesBE (n x : Nat) : Bytes := (bytesOfNat n x).reverse

/-- The rows that a number of `n` rows' length fills, row 0 least significant. -/
def rowsOfNat : Nat → Nat → List Row
  | 0, _ => []
  | n + 1, x => row (x % 2 ^ 4096) :: rowsOfNat n (x >>> 4096)

/-- Rows as one number, row 0 least significant. -/
def natOfRows : List Row → Nat
  | [] => 0
  | r :: rs => r.toNat + natOfRows rs <<< 4096

/-- Elements of `w` bits each as one number, element 0 least significant. -/
def packElems (w : Nat) : List Nat → Nat
  | [] => 0
  | x :: xs => x % 2 ^ w + packElems w xs <<< w

/-- Element `i` of `w` bits. -/
def elem (w : Nat) (x i : Nat) : Nat := fld x (w * i) w

def crcStep (poly c : Nat) : Nat := if c % 2 = 1 then (c / 2) ^^^ poly else c / 2

def crcByte (poly c b : Nat) : Nat :=
  let c := c ^^^ b
  let c := crcStep poly (crcStep poly (crcStep poly (crcStep poly c)))
  crcStep poly (crcStep poly (crcStep poly (crcStep poly c)))

def crcLoop (poly : Nat) : Nat → Nat → Nat → Nat
  | 0, _, c => c
  | n + 1, x, c => crcLoop poly n (x / 256) (crcByte poly c (x % 256))

/-- CRC-32C (Castagnoli) of the lowest `n` bytes of `x`, byte 0 first. -/
def crc32c (x n : Nat) : Nat := crcLoop 0x82F63B78 n x 0xFFFFFFFF ^^^ 0xFFFFFFFF

/-- CRC-32C of a byte string. -/
def crc32cBytes (b : Bytes) : Nat := (b.foldl (fun c x => crcByte 0x82F63B78 c x.toNat) 0xFFFFFFFF) ^^^ 0xFFFFFFFF

/-- A record of 64 bytes with the CRC-32C of bytes 0-59 in bytes 60-63. -/
def withCrc64 (x : Nat) : Nat := fld x 0 480 + put 480 32 (crc32c x 60)

/-- The CRC of a 64-byte record matches. -/
def crcOk64 (x : Nat) : Bool := fld x 480 32 == crc32c x 60

/-- A row with the CRC-32C of bytes 0-507 in bytes 508-511. -/
def withCrcRow (x : Nat) : Nat := fld x 0 4064 + put 4064 32 (crc32c x 508)

/-- The CRC of a whole-row record matches. -/
def crcOkRow (x : Nat) : Bool := fld x 4064 32 == crc32c x 508

/-! ### SHA-384 -/

/-- The round constants 8g to 8g + 7 as one number, constant 8g least significant. `Laws/Numbers.lean` ties each to the
cube root that FIPS 180-4 takes it from. -/
def shaTable : Nat → Nat
  | 0 => 0xAB1C5ED5DA6D8118923F82A4AF194F9B59F111F1B605D0193956C25BF348B538E9B5DBA58189DBBCB5C0FBCFEC4D3B2F7137449123EF65CD428A2F98D728AE22
  | 1 => 0xC19BF174CF6926949BDC06A725C7123580DEB1FE3B1696B172BE5D74F27B896F550C7DC3D5FFB4E2243185BE4EE4B28C12835B0145706FBED807AA98A3030242
  | 2 => 0x76F988DA831153B55CB0A9DCBD41FBD44A7484AA6EA6E4832DE92C6F592B0275240CA1CC77AC9C650FC19DC68B8CD5B5EFBE4786384F25E3E49B69C19EF14AD2
  | 3 => 0x142929670A0E6E7006CA6351E003826FD5A79147930AA725C6E00BF33DA88FC2BF597FC7BEEF0EE4B00327C898FB213FA831C66D2DB43210983E5152EE66DFAB
  | 4 => 0x92722C851482353B81C2C92E47EDAEE6766A0ABB3C77B2A8650A73548BAF63DE53380D139D95B3DF4D2C6DFC5AC42AED2E1B21385C26C92627B70A8546D22FFC
  | 5 => 0x106AA07032BBD1B8F40E35855771202AD69906245565A910D192E819D6EF5218C76C51A30654BE30C24B8B70D0F89791A81A664BBC423001A2BFE8A14CF10364
  | 6 => 0x682E6FF3D6B2B8A35B9CCA4F7763E3734ED8AA4AE3418ACB391C0CB3C5C95A6334B0BCB5E19B48A82748774CDF8EEB991E376C085141AB5319A4C116B8D2D0C8
  | 7 => 0xC67178F2E372532BBEF9A3F7B2C67915A4506CEBDE82BDE990BEFFFA23631E288CC702081A6439EC84C87814A1F0AB7278A5636F43172F60748F82EE5DEFB2FC
  | 8 => 0x1B710B35131C471B113F9804BEF90DAE0A637DC5A2C898A606F067AA72176FBAF57D4F7FEE6ED178EADA7DD6CDE0EB1ED186B8C721C0C207CA273ECEEA26619C
  | _ => 0x6C44198C4A4758175FCB6FAB3AD6FAEC597F299CFC657E2A4CC5D4BECB3E42B6431D67C49C100D4C3C9EBE0A15C9BEBC32CAAB7B40C7249328DB77F523047D84

/-- Round constant `t`. -/
def shaConst (t : Nat) : Nat := elem 64 (shaTable (t / 8)) (t % 8)

/-- The initial hash value of SHA-384 as one number, H0 least significant; tied to its square roots in `Laws/Numbers.lean`. -/
def shaStart : Nat :=
  0x47B5481DBEFA4FA4DB0C2E0D64F98FA78EB44A876858151167332667FFC00B31152FECD8F70E59399159015A3070DD17629A292A367CD507CBBB9D5DC1059ED8

def m64 (x : Nat) : Nat := x % 2 ^ 64
def ror64 (x n : Nat) : Nat := (x >>> n) ||| ((x <<< (64 - n)) % 2 ^ 64)

/-- The exclusive or of `x` turned right by each of two distances and a third value. -/
def turns (x i j third : Nat) : Nat := ror64 x i ^^^ ror64 x j ^^^ third

/-- The word of the message schedule that follows the last sixteen, oldest first. -/
def shaNextW (w : List Nat) : Nat :=
  let at_ (i : Nat) : Nat := w.getD i 0
  m64 (turns (at_ 14) 19 61 (at_ 14 >>> 6) + at_ 9 + turns (at_ 1) 1 8 (at_ 1 >>> 7) + at_ 0)

/-- The eight working variables of the compression function. -/
structure ShaVars where
  (a b c d e f g h : Nat)
deriving DecidableEq, Repr

/-- One round with schedule word plus constant `kw`. -/
def ShaVars.round (v : ShaVars) (kw : Nat) : ShaVars :=
  let choose := (v.e &&& v.f) ||| ((2 ^ 64 - 1 - v.e) &&& v.g)
  let majority := (v.a &&& (v.b ||| v.c)) ||| (v.b &&& v.c)
  let t := kw + v.h + choose + turns v.e 14 18 (ror64 v.e 41)
  ⟨m64 (t + majority + turns v.a 28 34 (ror64 v.a 39)), v.a, v.b, v.c, m64 (v.d + t), v.e, v.f, v.g⟩

/-- `n` rounds from round `t` on; `w` is the window of sixteen schedule words whose first is that of round `t`. -/
def ShaVars.rounds (v : ShaVars) (w : List Nat) (t : Nat) : Nat → ShaVars
  | 0 => v
  | n + 1 => ShaVars.rounds (v.round (shaConst t + w.getD 0 0)) (w.drop 1 ++ [shaNextW w]) (t + 1) n

/-- The compression of one block of sixteen words into the hash value `x`. -/
def shaBlock (x : Nat) (w : List Nat) : Nat :=
  let h (i : Nat) : Nat := elem 64 x i
  let v := ShaVars.rounds ⟨h 0, h 1, h 2, h 3, h 4, h 5, h 6, h 7⟩ w 0 80
  packElems 64 [h 0 + v.a, h 1 + v.b, h 2 + v.c, h 3 + v.d, h 4 + v.e, h 5 + v.f, h 6 + v.g, h 7 + v.h]

/-- Sixteen big-endian words from 128 bytes. -/
def shaWords (b : Bytes) : List Nat := tabulate 16 (fun i => natOfBytesBE ((b.drop (8 * i)).take 8))

/-- The hash value after `n` blocks. -/
def shaBlocks (x : Nat) (b : Bytes) : Nat → Nat
  | 0 => x
  | n + 1 => shaBlocks (shaBlock x (shaWords (b.take 128))) (b.drop 128) n

/-- The padded message. -/
def shaPad (b : Bytes) : Bytes :=
  let n := b.length
  b ++ [0x80#8] ++ List.replicate ((239 - n % 128) % 128) 0#8 ++ bytesBE 16 (8 * n)

/-- SHA-384 of a byte string: 48 bytes. -/
def sha384 (b : Bytes) : Bytes :=
  let p := shaPad b
  let x := shaBlocks shaStart p (p.length / 128)
  (List.range 6).flatMap (fun i => bytesBE 8 (elem 64 x i))

/-- SHA-384 as a 384-bit number whose byte 0, least significant, is the first byte of the digest. -/
def sha384Num (b : Bytes) : BitVec 384 := BitVec.ofNat 384 (natOfBytes (sha384 b))

/-! ### ChaCha8 (R251) -/

def m32 (x : Nat) : Nat := x % 2 ^ 32
def rol32 (x n : Nat) : Nat := m32 (x <<< n) ||| (x >>> (32 - n))

/-- The RFC 8439 quarter round on words `a b c d` of the state. -/
def quarter (s : List Nat) (ia ib ic id : Nat) : List Nat :=
  let a := s.getD ia 0; let b := s.getD ib 0; let c := s.getD ic 0; let d := s.getD id 0
  let a := m32 (a + b); let d := rol32 (d ^^^ a) 16
  let c := m32 (c + d); let b := rol32 (b ^^^ c) 12
  let a := m32 (a + b); let d := rol32 (d ^^^ a) 8
  let c := m32 (c + d); let b := rol32 (b ^^^ c) 7
  (((s.set ia a).set ib b).set ic c).set id d

/-- The column round followed by the diagonal round. -/
def doubleRound (s : List Nat) : List Nat :=
  let s := quarter (quarter (quarter (quarter s 0 4 8 12) 1 5 9 13) 2 6 10 14) 3 7 11 15
  quarter (quarter (quarter (quarter s 0 5 10 15) 1 6 11 12) 2 7 8 13) 3 4 9 14

/-- The keystream block at a 128-bit counter (R251, R252), 64 bytes as a number, byte 0 least significant. -/
def chacha8 (key : BitVec 256) (counter : Nat) : Nat :=
  let init := [0x61707865, 0x3320646E, 0x79622D32, 0x6B206574] ++ tabulate 8 (fun i => fld key.toNat (32 * i) 32) ++
    tabulate 4 (fun i => fld counter (32 * i) 32)
  let fin := doubleRound (doubleRound (doubleRound (doubleRound init)))
  packElems 32 (List.zipWith (fun a b => m32 (a + b)) fin init)

/-- The counter of stream `stream`, element index `index` (modulo 2^64) and draw `draw` (R252). -/
def drawCounter (stream index draw : Nat) : Nat := put 96 32 stream + put 32 64 index + put 0 32 draw

/-- The key of a seed and a salt (R253). -/
def deriveKey (seed salt : Word) : BitVec 256 :=
  let msg : Bytes := [0x50, 0x4F, 0x4C, 0x52, 0x49, 0x4E, 0x2E, 0x52, 0x4E, 0x47, 0x2E, 0x4B, 0x45, 0x59, 0x2E, 0x31] ++
    bytesOfNat 8 seed.toNat ++ bytesOfNat 8 salt.toNat
  BitVec.ofNat 256 (natOfBytes ((sha384 msg).take 32))

end Sys2Proof.Machine
end

