-- ==== Sys2Proof/Machine/Shipped.lean ====
section
/-! DEFINITION. The Holdings image that ships with a module (R13): the directory row (Table 16-4) and the Inventory copy whose
map steps 2-4 of R389 make of a module on which every tile passes. -/

namespace Sys2Proof.Machine

/-- A directory row. -/
def dirRow (slot inv seq serial : Nat) : Row :=
  row (withCrc64 (pack [(0, 32, 0x444C4F48), (32, 16, 1), (48, 1, slot), (49, 1, inv), (64, 64, seq), (128, 64, serial)]))

/-- The 36 tiles of a die lie on six streets of six avenues; its four of highest index are on its last street. -/
def shippedSpare (p : Nat) : Bool := p / 48 % 6 == 5 && decide (2 ≤ p % 48 % 6)

/-- Tile map entries of the `n` tiles from index `p` up, when `t` tiles below are presented (Table 15-2): presented tiles in
ascending order, and the two spares of lowest index, 242 and 243, as Curators. -/
def shippedMap : Nat → Nat → Nat → List Nat
  | 0, _, _ => []
  | n + 1, p, t =>
    if shippedSpare p then pack [(10, 2, if p = 242 ∨ p = 243 then 2 else 1)] :: shippedMap n (p + 1) t
    else t :: shippedMap n (p + 1) (t + 1)

/-- The rows of the flash by number: directory copy 0 with DIR_SEQ 1, and Inventory copy 0 with its 126 spares and no record.
Log entry 5: DESIGN CHOICE. -/
def shippedRows : List (Nat × Row) :=
  (0, dirRow 0 0 1 0) ::
  (0x800, row (withCrcRow (pack [(0, 16, 1), (16, 16, 126), (128, 11, 242), (144, 11, 243)]))) ::
  (rowsOfNat 9 (packElems 32 (shippedMap 1152 0 0))).zipIdx.map (fun e => (0x801 + e.2, e.1))

end Sys2Proof.Machine
end

