-- ==== Sys2Proof/Machine/State.lean ====
section
/-! DEFINITION. Everything the spec gives the block, as plain data, and the state right after reset. Indexed things are
`Sparse` tables: an unlisted key holds the default that the accessor in `Machine/Ops.lean` names. -/

namespace Sys2Proof.Machine

/-- Why a step stops. No command of this block ends in a fault: where a command's occasion has not come, the state
stands as it is (log entry 1). The type has no constructor. Log entry 1: DESIGN CHOICE. -/
inductive Fault : Type
deriving DecidableEq, Repr

/-- Why a command has no meaning. -/
inductive Refusal where
  /-- The command is not modelled. Raised only by an arm of `exec` that has no meaning yet: safe. -/
  | notModelled (mnemonic : String)
deriving DecidableEq, Repr

/-- A command port (Table 13-1). -/
inductive Port where
  | arcade
  | cwy (n : Nat)
  | i3c
  | jtag
deriving DecidableEq, Repr

/-- A unit of a tile, with a queue of its own (Table 08-1). -/
inductive TileUnit where
  /-- Array A(n). -/
  | arr (a : Nat)
  /-- Close unit of A(n). -/
  | close (a : Nat)
  /-- The concordance and merge unit. -/
  | conc
  /-- The vector engine. -/
  | vec
  /-- Stream queue q. -/
  | str (q : Nat)
deriving DecidableEq, Repr

/-- An operation that has issued and has not reached its completion point (R167). -/
structure Flight where
  list    : Nat
  bundle  : Nat
  slot    : Nat
  opcode  : Nat
  doneSig : Option Nat
  crec    : Bool
  status  : Nat
  detail  : Nat
  res0    : Nat
  res1    : Nat
  /-- Units whose queue it holds an entry of. -/
  units   : List TileUnit
  /-- Scalar registers of its list that it interlocks (R169). -/
  regs    : List Nat
  /-- Tiles whose signal DONE_SIG it increments too (disp.run, R177). -/
  tiles   : List Nat
  /-- Groups that it writes, keyed 32a + g, and groups that it closes once earlier operations on them are complete
  (R155). -/
  groups  : List Nat
  closes  : List Nat
  /-- Scalar registers that it writes at its completion point, with their values (R169). -/
  writes  : List (Nat × Nat)
  /-- acc.rec: the row that takes the records at the completion point, and the records (R153). -/
  record  : Option (Nat × Row)
  /-- conc.match: the stream queue it sends entries to, and how many (R234). -/
  emits   : Option (Nat × Nat)
  /-- Rows that it moves over the internal path of the stream engine (R239). -/
  rows    : Nat
  /-- It runs in wide-shallow form (R45, R142). -/
  wide    : Bool
  /-- It ends at the turn of its stream queue (str.go and str.cancel behind a cancellation, R165, R244) or when its
  condition is met (sync.wait), not by a completion of its own. -/
  held    : Bool
deriving DecidableEq, Repr

/-- A work list of a running launch (R169, R187, R189). -/
structure WorkList where
  enabled : Bool
  ended   : Bool
  /-- Bundle index of the next bundle, and the slot of it that issues next. -/
  pc      : Nat
  slot    : Nat
  /-- A branch taken in an earlier slot of the bundle. -/
  target  : Option Nat
  /-- ctl.end issued in an earlier slot of the bundle. -/
  ending  : Bool
  /-- x0-x15. -/
  regs    : Sparse Word
  /-- The sync.waits of its bundle that have issued and whose condition is not met yet: slot, signal and the value waited
  for, in slot order (R178). -/
  waiting : List (Nat × Nat × Nat)
  /-- x(IDX), read when the first slot of the bundle issues (R166). -/
  idxVal  : Nat
  /-- The bundle that is partly issued, as it was fetched; 0 between bundles. -/
  fetched : Nat
  /-- What the slots of that bundle have added to signals of the tile as they issued: all of them issue in one step, and a
  sync.set of a later slot applies before it (R164, R178). -/
  bumps   : Sparse Nat
deriving DecidableEq, Repr

/-- Log entry 6: DESIGN CHOICE. -/
def WorkList.reset : WorkList :=
  { enabled := false, ended := false, pc := 0, slot := 0, target := none, ending := false, regs := [], waiting := [],
    idxVal := 0, fetched := 0, bumps := [] }

/-- A launch running on a tile (Table 08-11) and the books of its completion record (Table 08-8). -/
structure Launch where
  progBase    : Nat
  progRows    : Nat
  compat      : Bool
  compRow     : Nat
  compRows    : Nat
  launchId    : Nat
  /-- SEQ of the next completion entry: entries produced so far. -/
  entries     : Nat
  lost        : Nat
  rejects     : Nat
  /-- BUNDLE and status of the first rejection. -/
  first       : Option (Nat × Nat)
  /-- CANCELLED or WATCHDOG once the launch is being stopped (R246, R280). -/
  stopping    : Option Nat
  /-- Acceptance number of the prog.launch that delivered it. -/
  cmd         : Nat
deriving DecidableEq, Repr

/-- A group of an array's accumulator store (Table 07-1, Table 07-3). -/
structure Group where
  isOpen    : Bool
  mode      : Bool
  /-- ACCFMT: 0 BF16-packed, 1 FP32, 2 FX64. -/
  fmt       : Nat
  base      : Nat
  bias      : Bool
  grows     : Nat
  gcols     : Nat
  anchor    : Int
  positions : Nat
  /-- Work list the group belongs to in the running launch (R188). -/
  owner     : Option Nat
deriving DecidableEq, Repr

def Group.reset : Group :=
  { isOpen := false, mode := false, fmt := 0, base := 0, bias := false, grows := 0, gcols := 0, anchor := 0,
    positions := 0, owner := none }

/-- Soft start and stop of one array (R53, R54). -/
inductive Ramp where
  | idle
  /-- A start ramp in its phase of level `e`, 1-8. -/
  | up (e : Nat)
  | active
  /-- A stop ramp in its phase of level `e`, 7-0. -/
  | down (e : Nat)
deriving DecidableEq, Repr

/-- An entry of a lane queue (Table 06-1). -/
structure LaneEntry where
  data : BitVec 64
  /-- Bus within the row band of the lane. -/
  bus  : Nat
  /-- The last entry of an M-block in its row band. -/
  last : Bool
deriving DecidableEq, Repr

/-- The weight registers of an array's cells, active or shadow (R33, R38): scale rows, and a row of 68 bytes for each
cell row, one byte to a physical column. -/
structure WeightRegs where
  scales : List (BitVec 544)
  rows   : List (BitVec 544)
deriving DecidableEq, Repr

/-- Log entry 83: DESIGN CHOICE. -/
def WeightRegs.reset : WeightRegs := { scales := [], rows := [] }

/-- An error in a stored codeword (R203). -/
structure CwFault where
  /-- Codeword of the row, 0-7. -/
  cw        : Nat
  /-- Bits of the codeword that are sensed wrong; one bit is correctable. -/
  bits      : List Nat
  /-- A write does not clear it. -/
  permanent : Bool
deriving DecidableEq, Repr

/-- One bank: its faulty cells, its remap table, its correction log, its patrol, and the rows it is to write back or
check late (R203-R210). -/
structure Bank where
  /-- Faults by bank row, spare rows included. -/
  faults   : Sparse (List CwFault)
  /-- Remap table: bank row to spare number + 1; 0 is not remapped (R206). -/
  remap    : Sparse Nat
  /-- Spare rows ever taken (R209). -/
  taken    : List Nat
  /-- Correction log: (bank row, corrected reads), most recently corrected first, at most 16 (R208). -/
  log      : List (Nat × Nat)
  /-- Next bank row the patrol reads (R205). -/
  patrol   : Nat
  /-- Rows corrected and not yet written back (R203). -/
  wback    : List Nat
  /-- Operand rows of a same-bank combine still to be read through the checked path, with the combine they belong to
  and whether an error of that combine was counted (R204). -/
  late     : List (Nat × Nat × Bool)
  /-- Rows already counted as left without a spare (R210). -/
  stuck    : List Nat
deriving DecidableEq, Repr

/-- Log entry 79: DESIGN CHOICE. -/
def Bank.reset : Bank :=
  { faults := [], remap := [], taken := [], log := [], patrol := 0, wback := [], late := [], stuck := [] }

/-- How the grants of a credit request travel back to its source. -/
inductive GrantPath where
  | none
  /-- Over the mesh, to the account of a tile of this device. -/
  | mesh (tile : Nat)
  /-- As replies to the win.credit command with this acceptance number (R302). -/
  | cmd (n : Nat)
deriving DecidableEq, Repr

/-- An entry of a window's ledger (R217, R324). -/
structure Ledger where
  /-- Source word (Table 09-3). -/
  src      : Nat
  held     : Nat
  want     : Nat
  /-- Arrival order of the pending request (R220). -/
  order    : Nat
  path     : GrantPath
  /-- RECEIVED, and SENT of the last TALLY settled, for a source on another device (R324, R325). -/
  received : Nat
  tally    : Nat
  remote   : Bool
deriving DecidableEq, Repr

/-- A window entry (Table 09-2) with its consumed count and its ledger (R217). -/
structure Window where
  baseRow   : Nat
  rows      : Nat
  credits   : Nat
  arriveSig : Nat
  arriveEn  : Bool
  srcMode   : Nat
  srcCount  : Nat
  srcs      : List Nat
  isOpen    : Bool
  gen       : Nat
  pool      : Nat
  consumed  : Nat
  ledger    : List Ledger
  /-- Number of the next request in arrival order. -/
  nextOrder : Nat
  /-- The owner-side deadline of the last row that arrived, set from its REMAIN: bits [19:0] of the interval count of the
  tile's die (Table 12-3, R269). -/
  due       : Nat
deriving DecidableEq, Repr

/-- Log entry 6: DESIGN CHOICE. -/
def Window.reset : Window :=
  { baseRow := 0, rows := 0, credits := 0, arriveSig := 0, arriveEn := false, srcMode := 0, srcCount := 0, srcs := [],
    isOpen := false, gen := 0, pool := 0, consumed := 0, ledger := [], nextOrder := 0, due := 0 }

/-- The str.go that released a descriptor: work list, bundle and slot. Absent for a release by command outside a
launch (R238). -/
structure Site where
  list   : Nat
  bundle : Nat
  slot   : Nat
deriving DecidableEq, Repr

/-- A descriptor that has started and not ended (R227, R239, R240). -/
structure Started where
  index    : Nat
  /-- The 512 bits read from the slot or the shadow. -/
  desc     : Nat
  site     : Option Site
  /-- Source rows to move. For MATCH the number grows as entries are consumed. -/
  total    : Nat
  /-- GATHER: indices of the selected source rows. MATCH: addresses of the block rows reached. -/
  sel      : List Nat
  /-- MATCH: entries consumed. -/
  entries  : Nat
  /-- Reads issued, in ascending source order. -/
  reads    : Nat
  /-- Rows that have arrived and wait in the reorder buffer, by source row. -/
  buf      : List (Nat × Row)
  /-- Destination writes issued, and completed. -/
  writes   : Nat
  done     : Nat
  /-- Destination writes issued and not complete, oldest first: address, row, and a mask of the eight lines that a snoop
  has already completed (R290). -/
  out      : List (Nat × Row × Nat)
  /-- The source row at which it failed, and its status (R238). -/
  failAt   : Option (Nat × Nat)
  /-- A paged reference: the page last reached and its base address (R196). -/
  page     : Option (Nat × Nat)
  /-- Slot entry read at the start of a paged descriptor. -/
  slotEnt  : Nat
  /-- Conversion counters of R76 already counted for this descriptor, and inexactness. -/
  counted  : List Nat
  /-- Reading of the tile's interval counter at the issue of each read, by source row (R269). -/
  stamps   : List Nat
deriving DecidableEq, Repr

/-- Whom the end of a cancellation answers. -/
inductive CancelBy where
  /-- The oldest str.go or str.cancel in flight for the queue, which is that str.cancel. -/
  | op
  /-- The stream.cancel command with this acceptance number. -/
  | cmd (n : Nat)
  /-- The launch that is being stopped (R246). -/
  | stop
deriving DecidableEq, Repr

/-- A cancellation in progress (R244): the descriptors it dropped, and whom its end answers. -/
structure Cancel where
  dropped : Nat
  by_     : CancelBy
  /-- Reading of the tile's interval counter when it began (R245). -/
  since   : Nat
deriving DecidableEq, Repr

/-- What has reached a stream queue behind a cancellation and is served in its turn (R165, R244, R300). -/
inductive Behind where
  /-- A str.go of this COUNT: the oldest str.go or str.cancel in flight for the queue. -/
  | go (count : Nat)
  /-- The stream.go command with this acceptance number, and its COUNT. -/
  | goCmd (n count : Nat)
  | cancel (by_ : CancelBy)
deriving DecidableEq, Repr

/-- A stream queue: its register (Table 10-1) and what it holds beside it. -/
structure Queue where
  ringRow     : Nat
  ringSlots   : Nat
  maxOut      : Nat
  pair        : Bool
  head        : Nat
  unstarted   : Nat
  /-- The shadow slot: ring index and descriptor of a re-arm (R243). -/
  shadow      : Option (Nat × Nat)
  lastGen     : Nat
  lastStatus  : Nat
  lastIndex   : Nat
  lastRows    : Nat
  lastDiscard : Nat
  /-- Sites of the released descriptors, oldest first. -/
  rel         : List (Option Site)
  started     : List Started
  cancelling  : Option Cancel
  /-- Releases and cancellations that wait for the end of the cancellation in progress, first come first. -/
  behind      : List Behind
  /-- The descriptor that started last has ended (R227). -/
  prevEnded   : Bool
  /-- Even queue of a pair: true when it is the odd queue's turn (R228). -/
  oddTurn     : Bool
  /-- Buffered match entries, at most 32, and those that a conc.match still holds because the buffer is full (R234). -/
  entries     : List Nat
  held        : List Nat
  /-- Work list that owns the queue in the running launch (R188). -/
  owner       : Option Nat
deriving DecidableEq, Repr

/-- Log entry 6: DESIGN CHOICE. -/
def Queue.reset : Queue :=
  { ringRow := 0, ringSlots := 0, maxOut := 0, pair := false, head := 0, unstarted := 0, shadow := none, lastGen := 0,
    lastStatus := 0, lastIndex := 0, lastRows := 0, lastDiscard := 0, rel := [], started := [], cancelling := none,
    behind := [], prevEnded := true, oddTurn := false, entries := [], held := [], owner := none }

/-- A credit account of a tile's stream engine (R241, R322). -/
structure Account where
  house   : Nat
  tile    : Nat
  curator : Bool
  window  : Nat
  gen     : Nat
  rows    : Nat
  sent    : Nat
  held    : Nat
  /-- Credits asked for and not granted, an unanswered request's whole COUNT included. -/
  pending : Nat
  /-- A grant has been received, so GEN and ROWS mean something. -/
  known   : Bool
  /-- A TALLY of this account is not acknowledged yet (R325). -/
  tallyOut : Bool
deriving DecidableEq, Repr

/-- A draw cursor (Table 11-5). -/
structure Cursor where
  last  : Nat
  valid : Bool
  draws : Nat
deriving DecidableEq, Repr

def Cursor.reset : Cursor := { last := 0, valid := false, draws := 0 }

/-- A physical tile. -/
structure Tile where
  /-- Scratchpad rows 0x0000-0x5FFF and accumulator rows 0x8000-0x87FF, by row number (R143, R199, R206). -/
  rows     : Sparse Row
  /-- Fresh marks of accumulator rows, by row number (R147). -/
  fresh    : Sparse Bool
  /-- Banks: 0-15 scratchpad, 16 + 4a + b accumulator bank b of array a. -/
  banks    : Sparse Bank
  vregs    : Sparse Row
  signals  : Sparse Nat
  launch   : Option Launch
  lists    : Sparse WorkList
  /-- The list the sequencer stays with (R187). -/
  current  : Nat
  flights  : List Flight
  /-- Groups, keyed 32a + g. -/
  groups   : Sparse Group
  ramps    : Sparse Ramp
  /-- Output tiles of compatibility mode, keyed 2a + OTILE: 4,096 FP32 patterns, absent while all +0 (R58, R193). -/
  otiles   : Sparse (List Nat)
  windows  : Sparse Window
  queues   : Sparse Queue
  accounts : List Account
  /-- Lane queues of each array: its 64 queues, lane 0 first, each oldest entry first; nothing listed while all are empty
  (R119, R120, R124). -/
  lanes    : Sparse (List (List LaneEntry))
  /-- MX scale queues, keyed 2a + row band: a block's eight scales in an entry (R120). -/
  scaleQs  : Sparse (List (BitVec 64))
  /-- Shadow and active weight registers of each array (R33, R38). -/
  shadow   : Sparse WeightRegs
  active   : Sparse WeightRegs
  /-- Chunk registers of wide-shallow form, keyed 16a + 8b + i: register b of the cells of token i on array a, as their chunk
  sums by column, none where a cell has met no pair (R48). -/
  chunks   : Sparse (List (Option Nat))
  /-- Input buffer of each array on the broadcast: up to 4 activation rows, oldest first, each 64 bytes of elements and the
  scales of its K-blocks (R40). -/
  inputs   : Sparse (List (BitVec 544))
  /-- Weight rows of the last pass of a wide-shallow operation in flight on each array which have not entered its lane queues
  (R124, R142). -/
  tails    : Sparse (List Nat)
  /-- Lane-slot buffers of the random service: tag + 1 of the block held, 0 empty (R259). -/
  rngTag   : Sparse Nat
  /-- Refill that a slot's core would make next: counter + 1, 0 none (R259). -/
  rngNext  : Sparse Nat
  cursors  : Sparse Cursor
  /-- References set by a restore (R264). -/
  refs     : Sparse Cursor
  /-- Queue the stream engine served last in its cyclic order, and the queues whose turn came while they were at their
  limit and who have not lost it (R239). -/
  served   : Nat
  owed     : List Nat
  /-- Number of the next same-bank combine (R204). -/
  combines : Nat
deriving DecidableEq, Repr

/-- Log entry 4: DESIGN CHOICE; log entry 6: DESIGN CHOICE; log entry 83: DESIGN CHOICE. -/
def Tile.reset : Tile :=
  { rows := [], fresh := [], banks := [], vregs := [], signals := [], launch := none, lists := [], current := 0,
    flights := [], groups := [], ramps := [], otiles := [], windows := [], queues := [], accounts := [], lanes := [],
    scaleQs := [], shadow := [], active := [], chunks := [], inputs := [], tails := [], rngTag := [], rngNext := [], cursors := [], refs := [], served := 0,
    owed := [], combines := 0 }

/-- A message on the mesh between two tiles of the device. -/
inductive Mesh where
  /-- Credit request (Table 09-4) of tile `src` to tile `dst`. -/
  | request (dst win count : Nat) (wait curator : Bool) (src : Nat)
  /-- Grant to tile `dst` for its account of window `win` of tile `owner`. -/
  | grant (dst owner win : Nat) (curator : Bool) (status gen rows granted pending : Nat)
  /-- A row of tile `src`, queue `q`, for a window of `dst` (by offset), or for a row of `dst` (R30), with its REMAIN
  (R269). -/
  | row (src q dst : Nat) (curator : Bool) (win : Option Nat) (byRow : Bool) (gen off remain : Nat) (data : Row)
deriving DecidableEq, Repr

/-- A row of the tile map (Table 15-2). -/
structure TileEnt where
  logical : Nat
  /-- 0 PRESENTED, 1 SPARE, 2 CURATOR, 3 RETIRED. -/
  role    : Nat
  state   : Nat
  /-- Width codes of A0-A3. -/
  widths  : List Nat
  cause   : Nat
deriving DecidableEq, Repr

def TileEnt.reset : TileEnt := { logical := 0, role := 1, state := 0, widths := [0, 0, 0, 0], cause := 0 }

/-- A retirement record (Table 15-3). -/
structure Record where
  type  : Nat
  field : Bool
  ptile : Nat
  what  : Nat
  loc   : Nat
deriving DecidableEq, Repr

/-- The Inventory (R338). -/
structure Inventory where
  tiles   : Sparse TileEnt
  records : List Record
  /-- Retirements that found the Inventory full: they take effect and are not recorded (R341). -/
  unkept  : List Record
  /-- Records not yet written to the Holdings image (R341). -/
  unsaved : Nat
  /-- Tiles waiting to be replaced by Curator once drained: (logical tile, cause, set IN_SERVICE after) (R348). -/
  failing : List (Nat × Nat × Bool)
deriving DecidableEq, Repr

/-- One HBM channel: remapped pages, frames taken and the log of corrected pages (R354, R355). -/
structure Channel where
  remap : Sparse Nat
  taken : Nat
  log   : List (Nat × Nat)
deriving DecidableEq, Repr

def Channel.reset : Channel := { remap := [], taken := 0, log := [] }

/-- An error in a codeword of HBM, or a poisoned granule of CXL (Table 10-6, R354): the bits of its row that are read
wrong, and whether the stack corrects them. -/
structure MemFault where
  bits      : List Nat
  corrected : Bool
  /-- A write does not clear it. -/
  permanent : Bool
deriving DecidableEq, Repr

/-- An expander behind a CXL port: its identifier, first row, rows and whether its link is up (R359). -/
structure Expander where
  port : Nat
  id   : Nat
  base : Nat
  rows : Nat
deriving DecidableEq, Repr

/-- A registered aperture (R291). -/
structure Aperture where
  num  : Nat
  base : Nat
  rows : Nat
deriving DecidableEq, Repr

/-- The memory tiers outside the tiles. -/
structure Memory where
  /-- HBM rows by device row (address / 512). -/
  hbm       : Sparse Row
  /-- Errors of the HBM cells, by the cells that hold a row (R354, R355). -/
  hbmFaults : Sparse (List MemFault)
  channels  : Sparse Channel
  /-- CXL rows, keyed port * 2^33 + row. -/
  cxl       : Sparse Row
  /-- Poison of CXL rows, keyed as they are (Table 10-6). -/
  poison    : Sparse (List MemFault)
  expanders : List Expander
  /-- Companion memory by companion row. It belongs to the companion; the device reads and writes it (R29). -/
  comp      : Sparse Row
  apertures : List Aperture
  /-- Deleted apertures that transfers may still be using, with the command that waits (R291). -/
  leaving   : List (Aperture × Nat)
deriving DecidableEq, Repr

/-- What Curator waits for before the final reply of a started command. -/
inductive Wait where
  | none
  /-- prog.launch: tiles still running, and the ends seen so far: (tile, END_STATUS, REJECTS, LOST). -/
  | launch (left : List Nat) (ends : List (Nat × Nat × Nat × Nat))
  | credit
  | drain (t : Nat)
  | recal (t : Nat)
  | aperture (a : Nat)
  | strCancel (t q : Nat)
  /-- stream.go behind a cancellation of the queue (R300). -/
  | strGo (t q : Nat)
  /-- Collective phase: COLL_ID. -/
  | coll (id : Nat)
  /-- A Peer command of this device must be answered: its tag. -/
  | peer (tag : Nat)
  /-- upd.activate: HANDOVER is set and started commands run to their final replies (R308). -/
  | handover
deriving DecidableEq, Repr

/-- The state of a journal entry (R305). -/
inductive CmdState where
  | queued
  | started
  /-- The final reply is made and waits for a slot of the Arcade ring. -/
  | done
  /-- The final reply has been sent. -/
  | replied
deriving DecidableEq, Repr

/-- An accepted command: an entry of the inbound queue and of Curator's journal (R299, R305). -/
structure Cmd where
  n       : Nat
  port    : Port
  /-- SRC_HOUSE and SEQ of a Causeway command. -/
  house   : Nat
  seq     : Nat
  hdr     : BitVec 512
  payload : Bytes
  st      : CmdState
  wait    : Wait
  /-- The final reply, once the command has ended. -/
  reply   : Option (BitVec 256) := none
deriving DecidableEq, Repr

/-- A Peer command this device has sent and not had answered (R321, R361, R368, R369). -/
inductive Purpose where
  | credit (tile : Nat) (house wtile window : Nat) (curator : Bool)
  | collUp (id phase : Nat)
  /-- `n` is absent for a subscription that the leaf renews by itself (R366). -/
  | subscribe (n : Option Nat) (quarter : Nat)
  | unsubscribe (quarter : Nat)
  | probe (n : Nat) (assume : Bool)
  | announce (n : Nat)
  | castCredit (leaf : Nat)
deriving DecidableEq, Repr

structure Sent where
  tag     : Nat
  port    : Nat
  house   : Nat
  opcode  : Nat
  purpose : Purpose
deriving DecidableEq, Repr

/-- What a reply is to its command: the receipt, a grant with MORE = 1, or the final reply of journal entry `n`. -/
inductive ReplyKind where
  | receipt
  | grant
  | final (n : Nat)
deriving DecidableEq, Repr

/-- The Arcade control block (Table 13-4) and the reply ring (R289). -/
structure Arcade where
  linkUp     : Bool
  replyBase  : Nat
  replySlots : Nat
  replyProd  : Nat
  replyCons  : Nat
  phase      : Bool
  intVector  : Nat
  intEn      : Bool
  /-- Replies that wait for a free slot, oldest first. -/
  waiting    : List (ReplyKind × BitVec 256)
deriving DecidableEq, Repr

/-- What the block has driven onto its links, oldest first. -/
inductive Tx where
  | reply (p : Port) (house : Nat) (r : BitVec 256)
  | int (vector : Nat)
  | ibi (tag : Nat)
  /-- A frame on port `p`, on the spare lane or not, with its MAC header in Ethernet mode. -/
  | frame (p : Nat) (spare : Bool) (mac : Option MacHdr) (bytes : Bytes)
  /-- A snoop answered Invalid (none) or with data. -/
  | srsp (line : Nat) (data : Option (BitVec 512))
  /-- A trace record: in narrow mode the bits of TRACE_D0, else the bytes of TRACE_D0-D7 by clock edge (R435). -/
  | trace (narrow : Bool) (values : List Nat)
  /-- Curator's report over Arcade that the service strip is lost (R383); its form is not stated. -/
  | stripLost
  /-- Completion of a CTL message for word `w` of the control block: what a read answers, none for a write (R287). -/
  | ctl (w : Nat) (data : Option Word)
deriving DecidableEq, Repr

/-- A sequenced frame kept until it is acknowledged (R319). -/
structure Kept where
  seq     : Nat
  type    : Nat
  body    : Bytes
  resends : Nat
  /-- TALLY: tile and account it belongs to. -/
  tally   : Option Nat
deriving DecidableEq, Repr

/-- A conversation (R318-R321) with its store of replies (R297). -/
structure Conv where
  port    : Nat
  house   : Nat
  txNext  : Nat
  unacked : List Kept
  /-- Frames that wait because 64 are unacknowledged. -/
  waiting : List Kept
  rxNext  : Nat
  /-- Frames accepted, at most 64: only those can be duplicates. -/
  rxCount : Nat
  /-- The last 64 commands: SEQ and the replies sent (R297). -/
  store   : List (Nat × List (BitVec 256))
deriving DecidableEq, Repr

/-- A Causeway port (R309, R312, R329-R333). -/
structure CwyPort where
  /-- Lanes: (trained, retired) of the working lane and of the spare lane. -/
  workUp     : Bool
  workGone   : Bool
  spareUp    : Bool
  spareGone  : Bool
  /-- true: the spare lane is in use. -/
  onSpare    : Bool
  /-- A lane left for errors is under test (R357): 1 working, 2 spare. -/
  testing    : Nat
  /-- The lane in use has lost its lock and no other lane could take its traffic (R329, R357). -/
  lost       : Bool
  quarantine : Bool
  /-- The last digest received (R332). -/
  digest     : Option (BitVec 128)
  lastPeer   : Nat
deriving DecidableEq, Repr

def CwyPort.reset : CwyPort :=
  { workUp := false, workGone := false, spareUp := false, spareGone := false, onSpare := false, testing := 0,
    lost := false, quarantine := false, digest := none, lastPeer := 0 }

/-- A collective held by the device (R334-R337). -/
structure Coll where
  id       : Nat
  /-- The member has begun it. -/
  begun    : Bool
  rank     : Nat
  kind     : Nat
  accfmt   : Nat
  anchor   : Nat
  size     : Nat
  /-- Phase in progress or last completed: 0 begin, 1 ready, 2 end. -/
  phase    : Nat
  /-- The phase named by `phase` has completed here. -/
  complete : Bool
  /-- The member's own command of the phase in progress. -/
  own      : Option Nat
  /-- Child commands present: (rank, phase, acceptance number). -/
  children : List (Nat × Nat × Nat)
  /-- The phase has been sent to the parent. -/
  sentUp   : Bool
  aborted  : Option Nat
deriving DecidableEq, Repr

/-- A cast subscription at a leaf (R361-R367). -/
structure Sub where
  quarter    : Nat
  dst        : Nat
  rows       : Nat
  /-- The source has answered and window 15 is open. -/
  live       : Bool
  shardRows  : Nat
  valid      : Bool
  compGen    : Nat
  /-- The cast record held (Table 15-5), one row. -/
  record     : Row
  /-- Transfer in progress: rows accepted (the header counted), the staged header, and whether a row was lost. -/
  accepted   : Nat
  header     : Row
  lost       : Bool
  active     : Bool
  incomplete : Nat
deriving DecidableEq, Repr

/-- A leaf registered at a cast source, with its transfer: next row to send (0 the header), or none (R360, R363). -/
structure Leaf where
  house   : Nat
  xfer    : Option Nat
  inst    : Nat
  acct    : Account
deriving DecidableEq, Repr

/-- Casts and hot spares. -/
structure Casts where
  subs     : List Sub
  leaves   : List Leaf
  overruns : Nat
  /-- The last completed instance of CAST_GROUP, and the last whose transfers all completed. -/
  lastInst : Nat
  allDone  : Nat
  /-- A transfer of the last instance ended without sending every row. -/
  bad      : Bool
deriving DecidableEq, Repr

/-- The random service of the device (Table 11-2). -/
structure Rng where
  seed   : Word
  salt   : Word
  keyGen : Nat
  /-- The key derived under R253: 256 bits, byte 0 least significant. -/
  key    : BitVec 256
deriving DecidableEq, Repr

/-- Settings: live and staged values and the configuration generation (R377, R396, R397). -/
structure Settings where
  live    : Sparse Nat
  staged  : Sparse (Option Nat)
  gen     : Nat
  digest  : BitVec 384
  /-- Live routing table, entry by house number (R326). -/
  routes  : Sparse Nat
  house   : Nat
deriving DecidableEq, Repr

/-- One Holdings flash (R384, R385), with what its SFDP table says of it: rows of 512 bytes by offset / 512. -/
structure Flash where
  /-- A flash is fitted and answers. -/
  answers  : Bool
  /-- It conforms to JESD251. -/
  conforms : Bool
  /-- It declares its parameters by an SFDP table. -/
  sfdp     : Bool
  /-- The table declares 8D-8D-8D mode. -/
  octal    : Bool
  mbit     : Nat
  /-- Erase sector in KiB. -/
  sector   : Nat
  /-- Blocks of 64 KiB whose program or erase fails again when it is retried (R388). -/
  bad      : List Nat
  rows     : Sparse Row
deriving DecidableEq, Repr

/-- The flash is used (R384, R385). -/
def Flash.present (f : Flash) : Bool :=
  f.answers && f.conforms && f.sfdp && decide (512 ≤ f.mbit) && decide (f.sector ≤ 64)

/-- Mode in which phase 2 reads the flash (R384): data lines and MHz, on both edges when it is octal. -/
def Flash.readMode (f : Flash) : Nat × Nat := if f.octal then (8, 200) else (1, 50)

/-- A Curator image that is held or runs (Table 16-5). -/
structure Image where
  version  : Nat
  security : Nat
  flash    : Nat
  slot     : Nat
  codeRows : Nat
  progRows : Nat
  entry    : Nat
  hash     : BitVec 384
deriving DecidableEq, Repr

/-- The live settings block (R397). -/
structure Block where
  serial : Nat
  slot   : Nat
  hash   : BitVec 384
deriving DecidableEq, Repr

/-- Start-up, the service strip and the Holdings image. -/
structure Boot where
  /-- 0 held in reset or without power, 1-4 the start-up phases, 5 running, 6 recovery (R380, R393). -/
  phase       : Nat
  /-- The start-up is that of a warm reset (R378). -/
  warm        : Bool
  /-- Elected strip: false D0, true D7. -/
  strip       : Option Bool
  stripFailed : Bool
  /-- Curator has reported the failed strip (R383). -/
  stripTold   : Bool
  /-- The reference clock was missing at D0 and at D7 when phase 1 began (R379). -/
  noRef0      : Bool
  noRef7      : Bool
  /-- Verdict of D0 and D7's own self-test, when known (R382). -/
  d0          : Option Bool
  d7          : Option Bool
  flash0      : Flash
  flash1      : Flash
  /-- The second flash answered and is used until the next full or power-on reset (R384). -/
  second      : Bool
  /-- Directory in use: copy and DIR_SEQ, when one is valid (R386). -/
  dir         : Option (Nat × Nat)
  dirSlot     : Nat
  invCopy     : Nat
  rebuild     : Bool
  image       : Option Image
  block       : Option Block
  /-- The values of the live block as phase 2 read them. -/
  values      : Sparse Nat
  /-- Counter increments of phases 1-3 held by the strip (R425). -/
  held        : List (Nat × Nat × Nat)
  /-- Staging: highest end offset written, and LENGTH verified since, by IMAGE (R394). -/
  staged0     : Nat
  staged1     : Nat
  verified0   : Option Nat
  verified1   : Option Nat
deriving DecidableEq, Repr

/-- Fuses and stores made at manufacture (R286, R394, R398, R400). -/
structure Fuses where
  debug     : Bool
  /-- The root public key of the image checks, x and y (Table 16-6). -/
  root      : Nat × Nat
  serial    : Nat
  security  : Nat
  opKey     : Option (BitVec 384)
  /-- The identity private key; no port, command or debug access reads it (R400). -/
  idKey     : Nat
  /-- The three certificates, device certificate first. -/
  certs     : List Bytes
deriving DecidableEq, Repr

/-- A takeover past step 2 (R369): its command, the house taken and the former one, INSTANCE, the announcements
acknowledged and outstanding, and the houses still to be told. -/
structure Assume where
  cmd   : Nat
  old   : Nat
  new   : Nat
  inst  : Nat
  acked : Nat
  out   : Nat
  left  : List Nat
deriving DecidableEq, Repr

/-- A notice to Curator: a watchdog that bit, with its resource and the holder's SOURCE (R279), the loss of the reference clock
of a die (R277), and a peer that is lost, with the port (R321). -/
inductive Notice where
  | watchdog (r : ResId) (source : Nat)
  | clockLoss (die : Nat)
  | peerLost (port house : Nat)
deriving DecidableEq, Repr

/-- Curator (R305-R308). -/
structure Curator where
  ready     : Bool
  handover  : Bool
  active    : Option Nat
  standby   : Option Nat
  /-- The journal in the active tile: commands queued, started or done, in acceptance order. -/
  cmds      : List Cmd
  /-- The journal entries that are REPLIED, with their final replies, in the order they were answered. -/
  replied   : List Cmd
  /-- The journal mirrored in the standby: its entries, and those that are REPLIED. -/
  mirror    : List Cmd
  mirrorReplied : List Cmd
  /-- Acceptance number of the next command. -/
  next      : Nat
  /-- Heartbeats written into the standby. -/
  beats     : Nat
  sent      : List Sent
  nextTag   : Nat
  /-- The 4 KiB result buffer of the I3C port (R298): rows 0-7. -/
  buf       : Sparse Row
  /-- The takeover of a house that this device carries out (R369). -/
  assuming  : Option Assume
  /-- What hardware has notified Curator of, oldest first. -/
  notices   : List Notice
deriving DecidableEq, Repr

/-- Where a request is on its path: at its first arbiter, sent on from there, or its row on the way back. -/
inductive Leg where
  | first
  | onward
  | back
deriving DecidableEq, Repr

/-- A request held by an arbiter (R269-R272). -/
structure Req where
  classP   : Bool
  /-- CLASS of its header, which it keeps where an arbiter serves it as class L (R268, R273). -/
  headP    : Bool
  deadline : Nat
  overdue  : Bool
  lock     : Bool
  unlock   : Bool
  emerg    : Bool
  /-- The refresh engine's request (R276). -/
  refresh  : Bool
  source   : Nat
  /-- Admission order. -/
  order    : Nat
  /-- An array's result write, which ranks above every other request (Table 12-6). -/
  result   : Bool
  /-- A credit request or grant, or a Causeway control frame (Table 12-3). -/
  control  : Bool
  /-- A control frame at Causeway egress, which ranks ahead of every data frame (Table 12-6). -/
  first    : Bool
  leg      : Leg
  /-- A read: its row returns. -/
  read     : Bool
  /-- It has been counted as granted after its deadline (R281). -/
  counted  : Bool
deriving DecidableEq, Repr

/-- An arbiter (R267-R279). -/
structure Arb where
  holder  : Option Req
  /-- Source that holds the lock (R274). -/
  locked  : Option Nat
  pending : List Req
  /-- Requests not acknowledged because 16 are pending (R272). -/
  outside : List Req
  /-- A class L transfer displaced by the emergency requester, that resumes (R276). -/
  resume  : Option Req
  /-- Array result writes that wait for the access in progress; none of them is parked (Table 12-6). -/
  results : List Req
  /-- Reading of the die's interval counter when the watchdog started, while it runs (R278). -/
  since   : Option Nat
  /-- That of the transfer or locked sequence that another requester's grant has interrupted, while it waits (R276). -/
  outer   : Option Nat
  next    : Nat
deriving DecidableEq, Repr

def Arb.reset : Arb :=
  { holder := none, locked := none, pending := [], outside := [], resume := none, results := [], since := none,
    outer := none, next := 0 }

/-- A request under way between two arbiters with its header (R268): its deadline while it stays on the die that set it,
whether it is a read, the leg it is on (R269), and whether it is a control frame's. -/
structure Transit where
  hdr      : ReqHdr
  deadline : Option Nat
  read     : Bool
  leg      : Leg
  control  : Bool
deriving DecidableEq, Repr

/-- Power, temperature and coolant (R403-R414), and the last readings. -/
structure Power where
  /-- The housekeeping converter runs. -/
  housekeeping : Bool
  pwrGood      : Bool
  /-- Core, HBM and PHY rails are on. -/
  rails        : Bool
  /-- RESET_N is high. -/
  resetHigh    : Bool
  /-- Microseconds of the present low of RESET_N that are still to come at the last event in it. -/
  lowLeft      : Nat
  /-- The trip is latched: THERM_TRIP_N low (R413). -/
  tripped      : Bool
  /-- Waiting for the input to fall below 60 V and for a power-on reset (R403). -/
  overVolt     : Bool
  liveCap      : Nat
  /-- Rail that Curator asks for, by die, in mV. -/
  vcore        : Sparse Nat
  /-- Rail that heat asks for, by die, in mV; 800 asks for nothing. -/
  thermRail    : Sparse Nat
  /-- Ration that Curator asks for, by die, in sixteenths. -/
  ration       : Sparse Nat
  /-- Dies above 105 C and stacks above 95 C whose action holds (Table 17-4). -/
  dieHot       : Sparse Bool
  stackHot     : Sparse Bool
  /-- Stacks above 85 C: refresh doubled. -/
  refresh2     : Sparse Bool
  peak         : Bool
  capHold      : Bool
  lowFlow      : Bool
  inputBad     : Bool
  inputMv      : Nat
  flow         : Nat
  /-- Hottest sensor of each die and temperature of each stack at the last reading, in 1/16 C. -/
  dieT         : Sparse Int
  stackT       : Sparse Int
deriving DecidableEq, Repr

/-- Contacts of J4 that the state of the block does not already give (R420). -/
structure Contacts where
  /-- Level of I3C_ADDR[1:0]. -/
  strap      : Nat
  /-- I3C static address, from the strap as it was read at power-on, and the dynamic address assigned on the bus. -/
  i3cStatic  : Nat
  i3cDynamic : Option Nat
deriving DecidableEq, Repr

/-- The pull-downs of I3C_ADDR give strap 0. Log entry 66: DESIGN CHOICE. -/
def Contacts.reset : Contacts := { strap := 0, i3cStatic := 0x58, i3cDynamic := none }

/-- The interval counter of a die and whether it runs from the reference clock (R277). -/
structure Clock where
  count : Nat
  lost  : Bool
deriving DecidableEq, Repr

def Clock.reset : Clock := { count := 0, lost := false }

/-- A one-shot timer of the control plane (R277). -/
inductive Timer where
  /-- A frame of a conversation that is not acknowledged (R320, R321). -/
  | retry (port house seq : Nat)
  /-- A conversation since its last frame (R318). -/
  | idle (port house : Nat)
  /-- A lane since its last control frame (R331). -/
  | hello (port : Nat) (spare : Bool)
  /-- The active Curator since its last heartbeat, and the standby since it saw one (R306). -/
  | beat
  | seen
  /-- A collective since the member's own command of its phase, since a child's command that is held, and since its abort
  (R336, R337). -/
  | phase (id : Nat)
  | child (n : Nat)
  | aborted (id : Nat)
deriving DecidableEq, Repr

/-- The trace output (R435). -/
structure Trace where
  buf : List (BitVec 128)
  seq : Nat
deriving DecidableEq, Repr

/-- The whole block. -/
structure State where
  /-- The commands that are waiting, first in, first out. -/
  pending  : List Instr
  /-- Physical tiles, by physical index 48 * street + avenue. -/
  tiles    : Sparse Tile
  mesh     : List Mesh
  mem      : Memory
  inv      : Inventory
  cur      : Curator
  arc      : Arcade
  tx       : List Tx
  ports    : Sparse CwyPort
  convs    : List Conv
  colls    : List Coll
  casts    : Casts
  rng      : Rng
  set      : Settings
  boot     : Boot
  fuses    : Fuses
  arbs     : List (ResId × Arb)
  /-- Requests that have left an arbiter on their way to the next. -/
  transit  : List Transit
  power    : Power
  contacts : Contacts
  clocks   : Sparse Clock
  /-- The one-shot timers that run, each with the die whose interval counter it reads and the reading it started at (R277). -/
  timers   : List (Timer × Nat × Nat)
  /-- Counter instances, keyed code * 2^20 + home; home 2^16 is the residue (R423, R424). -/
  counters : Sparse Nat
  trace    : Trace
  /-- The model's own field: the number of the next free value (log entry 2). No state of the hardware. -/
  free     : Nat
deriving DecidableEq, Repr

/-- A flash with nothing written, fitted or not, that has every property R384 and R385 ask for. Log entry 5: DESIGN CHOICE. -/
def Flash.blank (fitted : Bool) : Flash :=
  { answers := fitted, conforms := true, sfdp := true, octal := true, mbit := 512, sector := 64, bad := [], rows := [] }

/-- The first flash as the module ships (R13). Log entry 5: DESIGN CHOICE. -/
def Flash.shipped : Flash := { Flash.blank true with rows := shippedRows }

/-- Log entry 4: DESIGN CHOICE. -/
def Memory.reset : Memory :=
  { hbm := [], hbmFaults := [], channels := [], cxl := [], poison := [], expanders := [], comp := [], apertures := [], leaving := [] }

def Inventory.reset : Inventory := { tiles := [], records := [], unkept := [], unsaved := 0, failing := [] }

/-- Log entry 6: DESIGN CHOICE. -/
def Curator.reset : Curator :=
  { ready := false, handover := false, active := none, standby := none, cmds := [], replied := [], mirror := [], mirrorReplied := [], next := 0, beats := 0, sent := [],
    nextTag := 0, buf := [], assuming := none, notices := [] }

def Arcade.reset : Arcade :=
  { linkUp := false, replyBase := 0, replySlots := 0, replyProd := 0, replyCons := 0, phase := true, intVector := 0,
    intEn := false, waiting := [] }

def Casts.reset : Casts := { subs := [], leaves := [], overruns := 0, lastInst := 0, allDone := 0, bad := false }

/-- SEED and SALT are 0 at reset and the key is the one R253 derives from them. The number is that derivation, written
out because it is a constant; `Laws/Numbers.lean` ties it to R253. -/
def Rng.reset : Rng :=
  { seed := 0, salt := 0, keyGen := 0,
    key := 0xf00a2de538a633e9e7230ad58c2a31af7a12d947807f6ab49ec53c784210ad31 }

def Settings.reset : Settings := { live := [], staged := [], gen := 0, digest := 0, routes := [], house := 0 }

/-- Log entry 5: DESIGN CHOICE. -/
def Boot.reset : Boot :=
  { phase := 1, warm := false, strip := none, stripFailed := false, stripTold := false, noRef0 := false,
    noRef7 := false, d0 := none, d7 := none, flash0 := Flash.shipped,
    flash1 := Flash.blank false, second := false, dir := none, dirSlot := 0, invCopy := 0, rebuild := false,
    image := none, block := none, values := [], held := [], staged0 := 0, staged1 := 0, verified0 := none,
    verified1 := none }

/-- What is made at manufacture. The spec gives no value of it (log entry 5); the root key named here is the base point of the
curve of R390. Log entry 5: DESIGN CHOICE. -/
def Fuses.reset : Fuses :=
  { debug := false,
    root := (0x1D1C64F068CF45FFA2A63A81B7C13F6B8847A3E77EF14FE3DB7FCAFE0CBD10E8E826E03436D646AAEF87B2E247D4AF1E,
      0x8ABE1D7520F9C2A45CB1EB8E95CFD55262B70B29FEEC5864E19C054FF99129280E4646217791811142820341263C5315),
    serial := 0, security := 0, opKey := none, idKey := 1, certs := [[], [], []] }

/-- Log entry 6: DESIGN CHOICE. -/
def Power.reset : Power :=
  { housekeeping := true, pwrGood := true, rails := false, resetHigh := true, lowLeft := 0, tripped := false, overVolt := false,
    liveCap := 12000, vcore := [], thermRail := [], ration := [], dieHot := [], stackHot := [], refresh2 := [],
    peak := false, capHold := false, lowFlow := false, inputBad := false, inputMv := 50000, flow := 16000, dieT := [],
    stackT := [] }

/-- The machine right after a power-on reset: RESET_N has risen and phase 1 of start-up begins (R378, R380). Every
register holds the value of its Reset column; what the spec gives no value for is named in the log entries 4 to 6.
Log entry 2: DESIGN CHOICE; log entry 6: DESIGN CHOICE. -/
def State.reset : State :=
  { pending := [], tiles := [], mesh := [], mem := Memory.reset, inv := Inventory.reset, cur := Curator.reset,
    arc := Arcade.reset, tx := [], ports := [], convs := [], colls := [], casts := Casts.reset, rng := Rng.reset,
    set := Settings.reset, boot := Boot.reset, fuses := Fuses.reset, arbs := [], transit := [], power := Power.reset,
    contacts := Contacts.reset, clocks := [], timers := [],
    counters := [], trace := { buf := [], seq := 0 }, free := 0 }

end Sys2Proof.Machine
end

