-- ==== Sys2Proof/Machine/Flags.lean ====
section
/-! DEFINITION. Status codes (Table 13-10), and every counter computation: the catalogue of Table 18-4, increments
(R423), the holding of start-up counts (R425) and the trace records they offer (R435). -/

namespace Sys2Proof.Machine

/-! ### Status codes (R304) -/

def stOk : Nat := 0x00
def stAccepted : Nat := 0x01
def stBadCrc : Nat := 0x10
def stBadOpcode : Nat := 0x11
def stNotPermitted : Nat := 0x12
def stBadParam : Nat := 0x13
def stLength : Nat := 0x14
def stShadowFull : Nat := 0x15
def stNoResource : Nat := 0x16
def stConflict : Nat := 0x17
def stDigest : Nat := 0x18
def stSignature : Nat := 0x19
def stCancelled : Nat := 0x1A
def stWatchdog : Nat := 0x1B
def stGeometry : Nat := 0x1C
def stStale : Nat := 0x1D

/-! ### The catalogue (Table 18-4) -/

/-- The kind of home a counter has one instance of (R424). -/
inductive Home where
  | array
  | tile
  | die
  | channel
  | cwy
  | cxl
  | device
deriving DecidableEq, Repr

/-- The codes of counters that share a home. -/
def Home.codes (h : Home) (l : List Nat) : List (Nat × Home) := l.map (fun c => (c, h))

/-- Every counter code with its home, in ascending order. Log entry 17: DESIGN CHOICE. -/
def catalogue : List (Nat × Home) :=
  Home.array.codes [0x0101] ++
  Home.tile.codes [0x0201, 0x0202, 0x0203, 0x0204, 0x0301, 0x0302, 0x0401, 0x0402, 0x0403, 0x0404, 0x0405, 0x0406,
    0x0501, 0x0601] ++
  Home.array.codes [0x0701] ++
  Home.tile.codes [0x0801, 0x0802, 0x0803, 0x0901, 0x0902, 0x0903, 0x0904, 0x0905, 0x0A01, 0x0A02, 0x0B01, 0x0B02,
    0x0C01, 0x0D01, 0x0D02, 0x0D03, 0x0D04, 0x0D05, 0x0E01, 0x0E02, 0x0E03, 0x0E04, 0x0E05, 0x0E06, 0x0E07, 0x0E08] ++
  Home.device.codes [0x0E09] ++
  Home.tile.codes [0x0F01, 0x0F02, 0x0F03, 0x0F04, 0x0F05] ++
  Home.channel.codes [0x1001, 0x1002, 0x1003] ++
  Home.cxl.codes [0x1101, 0x1102] ++
  Home.tile.codes [0x1201, 0x1202, 0x1203] ++
  Home.die.codes [0x1301, 0x1302, 0x1303, 0x1304, 0x1305, 0x1401] ++
  Home.device.codes [0x1501, 0x1502, 0x1503, 0x1601, 0x1602, 0x1701, 0x1702] ++
  Home.cwy.codes [0x1801, 0x1802, 0x1803, 0x1804, 0x1805, 0x1806, 0x1807, 0x1808, 0x1809, 0x180A, 0x180B, 0x180C,
    0x180D, 0x180E, 0x180F] ++
  Home.device.codes [0x1901, 0x1902, 0x1A01, 0x1A02, 0x1A03, 0x1B01, 0x1B02, 0x1B03, 0x1C01, 0x1D01, 0x1E01,
    0x1E02, 0x1E03, 0x1F01] ++
  Home.die.codes [0x1F02] ++
  Home.device.codes [0x1F03] ++
  Home.die.codes [0x2001, 0x2002] ++
  Home.device.codes [0x2101, 0x2201]

/-- Log entry 36: DEDUCED. -/
def counterHome (code : Nat) : Option Home := (catalogue.find? (fun e => e.1 == code)).map (fun e => e.2)

/-- Home number of the residue instance of a tile or array counter (R424). -/
def residue : Nat := 2 ^ 16

/-- Key of an instance in the counter table. -/
def counterKey (code home : Nat) : Nat := code * 2 ^ 20 + home

/-- Value of one instance. -/
def State.counter (s : State) (code home : Nat) : Nat := Sparse.get 0 s.counters (counterKey code home)

/-- One atomic increment: saturates at 2^48 - 1 (R423). -/
def State.bump (s : State) (code home amount : Nat) : State :=
  { s with counters := Sparse.modify 0 s.counters (counterKey code home) (fun v => min (v + amount) (2 ^ 48 - 1)) }

/-- The scope of a traced home (Table 18-1). -/
def traceScope : Home → Nat → Nat
  | .die, h => 0x3000 + h
  | .channel, h => 0x4000 + h
  | .cwy, h => 0x5000 + h
  | .cxl, h => 0x6000 + h
  | _, _ => 0

/-- A trace record without its TIME, which is written at emission (Table 18-6). -/
def traceRecord (seq code scope amount : Nat) : BitVec 128 :=
  BitVec.ofNat 128 (pack [(0, 8, 0xC7), (16, 16, seq), (32, 32, code), (64, 16, scope), (80, 16, min amount 65535)])

/-- The increment of a traced counter offers one record; a full buffer drops it (R435). Log entry 76: DEDUCED. -/
def State.offerTrace (s : State) (code scope amount : Nat) : State :=
  let s' := { s with trace := { s.trace with seq := (s.trace.seq + 1) % 65536 } }
  if s.trace.buf.length < 256 then
    { s' with trace := { s'.trace with buf := s.trace.buf ++ [traceRecord s.trace.seq code scope amount] } }
  else s'.bump 0x2201 0 1

/-- Counts an event on the instance `home` of a counter. Events of phases 1-3 are held by the strip (R425); the
trace begins with phase 4 (R435).
Log entry 76: DEDUCED. -/
def State.count (s : State) (code home amount : Nat) : State :=
  if amount = 0 then s
  else if 1 ≤ s.boot.phase ∧ s.boot.phase ≤ 3 then
    { s with boot := { s.boot with held := s.boot.held ++ [(code, home, amount)] } }
  else
    let s' := s.bump code home amount
    if s.boot.phase ≠ 4 ∧ s.boot.phase ≠ 5 then s'
    else match counterHome code with
    | some .tile => s'
    | some .array => s'
    | some h => s'.offerTrace code (traceScope h home) amount
    | none => s'

/-- Counts one event. -/
def State.count1 (s : State) (code home : Nat) : State := s.count code home 1

/-- Counts `n` events, each by itself. -/
def State.countEach (s : State) (code home : Nat) : Nat → State
  | 0 => s
  | n + 1 => State.countEach (s.count1 code home) code home n

/-- Counts one event when a condition holds. -/
def State.countIf (s : State) (c : Bool) (code home : Nat) : State := if c then s.count code home 1 else s

/-- Takes the next number for a free value (log entry 2). Log entry 2: DESIGN CHOICE. -/
def State.draw (s : State) : State × Nat := ({ s with free := s.free + 1 }, s.free)

end Sys2Proof.Machine
end

