-- ==== Sys2Proof/Machine/Ops.lean ====
section
/-! DEFINITION. The named operations over the state: tiles and the Inventory, settings, rows with their error
correction (R199-R210), signals (R178), completion entries (R179) and retirement records (R340, R341). -/

namespace Sys2Proof.Machine

/-- What a command answers. -/
abbrev Result := Host.Outcome State Fault Refusal

/-! ### Tiles and the tile map -/

def numTiles : Nat := 1024
def numPhys : Nat := 1152

def State.tile (s : State) (p : Nat) : Tile := Sparse.get Tile.reset s.tiles p
def State.setTile (s : State) (p : Nat) (t : Tile) : State := { s with tiles := Sparse.set Tile.reset s.tiles p t }
def State.updTile (s : State) (p : Nat) (f : Tile → Tile) : State := s.setTile p (f (s.tile p))

/-- An arbiter; one that is not listed is as at reset. -/
def State.arb (s : State) (r : ResId) : Arb :=
  match s.arbs.find? (fun e => e.1 == r) with
  | some e => e.2
  | none => Arb.reset

def roPresented : Nat := 0
def roSpare : Nat := 1
def roCurator : Nat := 2
def roRetired : Nat := 3

def tsInService : Nat := 0
def tsDraining : Nat := 1
def tsDrained : Nat := 2
def tsRecal : Nat := 3

/-- Tile map entry of a physical tile (Table 15-2). -/
def State.ent (s : State) (p : Nat) : TileEnt := Sparse.get TileEnt.reset s.inv.tiles p

def State.setEnt (s : State) (p : Nat) (e : TileEnt) : State :=
  { s with inv := { s.inv with tiles := Sparse.set TileEnt.reset s.inv.tiles p e } }

/-- The physical tile that presents a logical number; none when it is vacant (R12, R350). -/
def State.phys (s : State) (t : Nat) : Option Nat :=
  (s.inv.tiles.find? (fun e => e.2.role == roPresented && e.2.logical == t)).map (fun e => e.1)

/-- Logical number of a presented physical tile. -/
def State.logical (s : State) (p : Nat) : Option Nat :=
  let e := s.ent p
  if e.role = roPresented then some e.logical else none

/-- Die of a physical tile P = 48 * street + avenue (R11). -/
def dieOf (p : Nat) : Nat := 8 * (p / 48 / 6) + p % 48 / 6

/-- The tile is in a drained state: DRAINED or RECAL (R342). -/
def State.drained (s : State) (p : Nat) : Bool := (s.ent p).state == tsDrained || (s.ent p).state == tsRecal

/-- Presented width W of array `a` of a tile (R55, R339). -/
def State.width (s : State) (p a : Nat) : Nat := 64 - 4 * (s.ent p).widths.getD a 0

def State.running (s : State) (p : Nat) : Bool := (s.tile p).launch.isSome

/-- A launch runs on some tile. -/
def State.anyLaunch (s : State) : Bool := s.tiles.any (fun e => e.2.launch.isSome)

/-! ### Settings (Table 16-8) -/

def keyHouse : Nat := 0x0001
def keySeqTable : Nat := 0x0002
def keyPowerCap : Nat := 0x0003
def keyRamp : Nat := 0x0010
def keySpRetire : Nat := 0x0011
def keyHbmReloc : Nat := 0x0012
def keyWatchdog : Nat := 0x0020
def keyCwyMode : Nat := 0x0030
def keyEtherType : Nat := 0x0031
def keySpareBer : Nat := 0x0032
def keyQuarantine : Nat := 0x0033
def keyCollTimeout : Nat := 0x0040
def keyCastGroup : Nat := 0x0041
def keyCastExt : Nat := 0x0050
def keyGroup : Nat := 0x0100
def keyRank : Nat := 0x2000
def keyRoute : Nat := 0x4000

/-- Default of a settings key. -/
def keyDefault (k : Nat) : Nat :=
  if k = keyPowerCap then 12000
  else if k = keyRamp then 32
  else if k = keySpRetire then 3
  else if k = keyHbmReloc then 4
  else if k = 0x0022 then 16
  else if k = 0x0025 then 64
  else if 0x0020 ≤ k ∧ k ≤ 0x0024 then 4
  else if k = keyEtherType then 0x88B5
  else if k = keySpareBer then 16
  else if k = keyCollTimeout then 100
  else if k = keyCastGroup then 0xFF
  else 0

/-- Live value of a key: `live` lists the values that differ from the default, as value + 1. -/
def liveGet (live : Sparse Nat) (k : Nat) : Nat :=
  match Sparse.get 0 live k with
  | 0 => keyDefault k
  | v + 1 => v

def liveSet (live : Sparse Nat) (k v : Nat) : Sparse Nat := Sparse.set 0 live k (if v = keyDefault k then 0 else v + 1)

def State.live (s : State) (k : Nat) : Nat := liveGet s.set.live k

/-! ### Retirement records (R340, R341) -/

/-- Makes a field record at the moment its retirement takes effect; a full Inventory keeps none of it, and the retirement
takes effect all the same. -/
def State.record (s : State) (type ptile what loc : Nat) : State :=
  let r : Record := { type := type, field := true, ptile := ptile, what := what, loc := loc }
  if s.inv.records.length ≥ 16384 then
    { s with inv := { s.inv with unkept := s.inv.unkept ++ [r] } }.count1 0x1A01 0
  else { s with inv := { s.inv with records := s.inv.records ++ [r], unsaved := s.inv.unsaved + 1 } }

/-- Every retirement in effect: those the Inventory holds, and those that found it full. -/
def State.retired (s : State) : List Record := s.inv.records ++ s.inv.unkept

/-- Dies of the x8 PHY blocks of a port: 0 Arcade, 1-4 X0-X3 (Table 01-3). -/
def phyDies : Nat → List Nat
  | 0 => [0, 1]
  | 1 => [2, 3]
  | 2 => [4, 5]
  | 3 => [24, 25]
  | _ => [26, 27]

/-- A port has a failed PHY block (R18, R358). -/
def State.phyFailed (s : State) (port : Nat) : Bool :=
  s.retired.any (fun r => r.type == 6 && (phyDies port).contains r.what)

/-- Bad columns of an array of a physical tile (R55). -/
def State.badColumns (s : State) (p a : Nat) : List Nat :=
  (s.retired.filter (fun r => r.type == 1 && r.ptile == p && r.what % 4 == a)).map (fun r => r.what / 4)

/-- Physical columns that the logical columns are mapped onto, in ascending order (R55). -/
def State.goodColumns (s : State) (p a : Nat) : List Nat :=
  (List.range 68).filter (fun c => !(s.badColumns p a).contains c)

/-- Curator notes that a presented tile must be replaced, and drains it (R348). -/
def State.failTile (s : State) (p cause : Nat) (inService : Bool) : State :=
  match s.logical p with
  | none => s
  | some t =>
    if s.inv.failing.any (fun f => f.1 == t) then s
    else
      let e := s.ent p
      let s := { s with inv := { s.inv with failing := s.inv.failing ++ [(t, cause, inService)] } }
      if e.state = tsInService then s.setEnt p { e with state := tsDraining } else s

/-! ### Banks (R199, R200) -/

/-- Bank and bank row of a scratchpad row 0x0000-0x5FFF or an accumulator row 0x8000-0x87FF. -/
def bankOf (r : Nat) : Nat × Nat :=
  if r < 0x6000 then (r % 16, r / 16)
  else
    let q := r - 0x8000
    (16 + 4 * (q / 512) + q % 4, q % 512 / 4)

/-- Row number of a bank row. -/
def rowOf (b br : Nat) : Nat :=
  if b < 16 then 16 * br + b else 0x8000 + 512 * ((b - 16) / 4) + 4 * br + (b - 16) % 4

def bankRows (b : Nat) : Nat := if b < 16 then 1536 else 128
def bankSpares (b : Nat) : Nat := if b < 16 then 64 else 8

/-- A row number that names a row (Table 01-13). -/
def rowExists (r : Nat) : Bool := decide (r < 0x6000) || (decide (0x8000 ≤ r) && decide (r < 0x8800))

def Tile.bank (t : Tile) (b : Nat) : Bank := Sparse.get Bank.reset t.banks b
def Tile.setBank (t : Tile) (b : Nat) (x : Bank) : Tile := { t with banks := Sparse.set Bank.reset t.banks b x }

/-- Follows the remap table from physical row `pr`: a spare that was found bad is itself mapped to a later spare.
Log entry 34: DESIGN CHOICE. -/
def Bank.follow (x : Bank) (b : Nat) : Nat → Nat → Nat
  | 0, pr => pr
  | n + 1, pr =>
    match Sparse.get 0 x.remap pr with
    | 0 => pr
    | k + 1 => Bank.follow x b n (bankRows b + k)

/-- The physical row that holds a bank row's contents now (R206). -/
def Bank.place (x : Bank) (b br : Nat) : Nat := x.follow b 65 br

/-! ### Error correction (R203) -/

/-- Flips data bits of a codeword; bits 512-522 are check bits. -/
def flipBits (x : Nat) (bits : List Nat) : Nat :=
  bits.foldl (fun a i => if i < 512 then a ^^^ 2 ^ i else a) x

/-- One codeword read through the decoder: contents delivered, corrected, uncorrectable.
Log entry 3: DESIGN CHOICE; log entry 79: DESIGN CHOICE. -/
def senseCw (x : Nat) (bits : List Nat) : Nat × Bool × Bool :=
  match bits with
  | [] => (x, false, false)
  | [_] => (x, true, false)
  | [a, b] => (flipBits x [a, b], false, true)
  | l =>
    match Config.eccDecode l with
    | none => (flipBits x l, false, true)
    | some i => (flipBits (flipBits x l) [i], true, false)

/-- Bits of codeword `c` that are sensed wrong. -/
def cwBits (fs : List CwFault) (c : Nat) : List Nat :=
  ((fs.filter (fun f => f.cw == c)).flatMap (fun f => f.bits)).eraseDups

/-- What a read of a row finds. -/
structure Sensed where
  data          : Row
  corrected     : Bool
  uncorrectable : Bool
deriving DecidableEq, Repr

/-- A read through the normal path: eight codewords checked. -/
def senseRow (x : Row) (fs : List CwFault) : Sensed :=
  match fs with
  | [] => ⟨x, false, false⟩
  | _ =>
    let l := tabulate 8 (fun c => senseCw (fld x.toNat (512 * c) 512) (cwBits fs c))
    ⟨row (packElems 512 (l.map (fun e => e.1))), l.any (fun e => e.2.1), l.any (fun e => e.2.2)⟩

/-- The cells of a row as a same-bank combine senses them, unchecked (R204). -/
def senseRaw (x : Row) (fs : List CwFault) : Row :=
  match fs with
  | [] => x
  | _ => row (packElems 512 (tabulate 8 (fun c => flipBits (fld x.toNat (512 * c) 512) (cwBits fs c))))

/-- Faults that a write leaves. Log entry 79: DESIGN CHOICE. -/
def permanentOnly (fs : List CwFault) : List CwFault := fs.filter (fun f => f.permanent)

/-- The faults of the cells that hold a bank row. -/
def Tile.faultsAt (t : Tile) (b br : Nat) : List CwFault := Sparse.get [] (t.bank b).faults ((t.bank b).place b br)

/-- Stores a row whole with fresh check bits: the fresh mark and the errors of the cells are cleared. -/
def Tile.store (t : Tile) (r : Nat) (x : Row) : Tile :=
  let (b, br) := bankOf r
  let k := t.bank b
  let t := t.setBank b { k with faults := Sparse.modify [] k.faults (k.place b br) permanentOnly }
  { t with rows := Sparse.set 0 t.rows r x, fresh := Sparse.set false t.fresh r false }

def setRow (s : State) (p r : Nat) (x : Row) : State := s.updTile p (fun t => t.store r x)

/-- Correction log of R208: the count of a row after one more corrected read, and the log, least recently corrected
entry last. -/
def logBump (log : List (Nat × Nat)) (br : Nat) : Nat × List (Nat × Nat) :=
  match log.find? (fun e => e.1 == br) with
  | some e => (e.2 + 1, (br, e.2 + 1) :: log.filter (fun e => e.1 != br))
  | none => (1, (br, 1) :: log.take 15)

/-- The spare that bank row `br` takes when it is retired: the lowest never taken; a spare that is itself retired is no
choice (R209; log entry 35). None when every spare has been taken. Log entry 35: DEDUCED. -/
def Bank.nextSpare (k : Bank) (b br : Nat) : Option Nat :=
  (List.range (bankSpares b)).find? (fun n => !k.taken.contains n && decide (br ≠ bankRows b + n))

/-- Retirement of a bank row to the next spare (R209); `x` is the row as read. Without a spare the row stays and is
counted once (R210). Log entry 34: DESIGN CHOICE. -/
def State.retireRow (s : State) (p b br : Nat) (x : Row) : State :=
  let t := s.tile p
  let k := t.bank b
  let a := (b - 16) / 4
  let what := if b < 16 then b + 16 * br else a + 4 * ((b - 16) % 4) + 16 * br
  let type := if b < 16 then 2 else 3
  match k.nextSpare b br with
  | none =>
    if k.stuck.contains br then s
    else
      let s := s.setTile p (t.setBank b { k with stuck := k.stuck ++ [br] })
      let s := (s.count1 0x0D05 p).record type p what (if b < 16 then 0x7F else 0xF)
      s.failTile p 4 true
  | some sp =>
    let k' : Bank :=
      { k with remap := Sparse.set 0 k.remap br (sp + 1),
               taken := (if bankRows b ≤ br then [br - bankRows b] else []) ++ sp :: k.taken,
               log := k.log.filter (fun e => e.1 != br), wback := k.wback.filter (fun r => r != br),
               faults := Sparse.modify [] k.faults (bankRows b + sp) permanentOnly }
    let t := { t.setBank b k' with rows := if br < bankRows b then Sparse.set 0 t.rows (rowOf b br) x else t.rows }
    ((s.setTile p t).count1 0x0D04 p).record type p what sp

/-- Books of a checked read of bank row `br` that found `f` (R203, R208). -/
def State.noteRead (s : State) (p b br : Nat) (f : Sensed) : State :=
  let s :=
    if f.corrected then
      let s := s.count1 0x0D01 p
      let t := s.tile p
      let k := t.bank b
      let (n, log) := logBump k.log br
      let wback := if k.wback.contains br then k.wback else k.wback ++ [br]
      let s := s.setTile p (t.setBank b { k with log := log, wback := wback })
      if n ≥ s.live keySpRetire ∧ !f.uncorrectable then s.retireRow p b br f.data else s
    else s
  if f.uncorrectable then (s.count1 0x0D02 p).retireRow p b br f.data else s

/-- Bank `b` writes bank row `br` back: the row as the decoder delivers it, with fresh check bits (R203). A fresh row keeps
its mark (R147), and the cells of a spare row that holds none are made good. -/
def State.writeBack (s : State) (p b br : Nat) : State :=
  let t := s.tile p
  let k := t.bank b
  let t := t.setBank b { k with wback := k.wback.filter (fun r => r != br) }
  if br < bankRows b then
    let f := senseRow (Sparse.get 0 t.rows (rowOf b br)) (t.faultsAt b br)
    s.setTile p { t.store (rowOf b br) f.data with
      fresh := t.fresh }
  else
    let k := t.bank b
    s.setTile p (t.setBank b { k with faults := Sparse.modify [] k.faults (k.place b br) permanentOnly })

/-- A corrected row is written back before it is read again (R208). -/
def State.settle (s : State) (p b br : Nat) : State :=
  if ((s.tile p).bank b).wback.contains br then s.writeBack p b br else s

/-- One checked read of a row of a tile (R147, R203, R208). Log entry 35: DEDUCED. -/
def readRow (s : State) (p r : Nat) : State × Row :=
  if Sparse.get false (s.tile p).fresh r then (s, 0)
  else
    let (b, br) := bankOf r
    let s := s.settle p b br
    let t := s.tile p
    let f := senseRow (Sparse.get 0 t.rows r) (t.faultsAt b br)
    (if f.corrected ∨ f.uncorrectable then s.noteRead p b br f else s, f.data)

/-- Checked reads of `n` consecutive rows: the contents as one number, first row least significant.
Log entry 24: DESIGN CHOICE. -/
def readRows (s : State) (p r : Nat) : Nat → State × Nat
  | 0 => (s, 0)
  | n + 1 =>
    let (s, x) := readRow s p r
    let (s, y) := readRows s p (r + 1) n
    (s, x.toNat + y <<< 4096)

/-- The row is a program row of the tile's running launch (R163). -/
def Tile.progRow (t : Tile) (r : Nat) : Bool :=
  match t.launch with
  | some l => decide (l.progBase ≤ r) && decide (r < l.progBase + l.progRows)
  | none => false

/-- A write by any agent: program rows of a running launch accept none (R163). -/
def writeRow (s : State) (p r : Nat) (x : Row) : State :=
  if (s.tile p).progRow r then s.count1 0x0B01 p else setRow s p r x

/-- Writes consecutive rows. -/
def writeRows (s : State) (p r : Nat) : List Row → State
  | [] => s
  | x :: xs => writeRows (writeRow s p r x) p (r + 1) xs

/-! ### Signals (R178) -/

def Tile.signal (t : Tile) (e : Nat) : Nat := Sparse.get 0 t.signals e
def State.addSignal (s : State) (p e n : Nat) : State :=
  s.updTile p (fun t => { t with signals := Sparse.modify 0 t.signals e (fun v => (v + n) % 2 ^ 32) })
def State.setSignal (s : State) (p e v : Nat) : State :=
  s.updTile p (fun t => { t with signals := Sparse.set 0 t.signals e (v % 2 ^ 32) })

/-- The condition of sync.wait for the value waited for (R178). -/
def sigReached (e target : Nat) : Bool := (e + 2 ^ 32 - target % 2 ^ 32) % 2 ^ 32 < 2 ^ 31

/-! ### Completion record (R179, Table 08-8) -/

/-- What an entry reports. -/
structure Entry where
  bundle : Nat
  slot   : Nat
  list   : Nat
  status : Nat
  detail : Nat
  opcode : Nat
  res0   : Nat
  res1   : Nat
deriving DecidableEq, Repr

def Entry.bits (e : Entry) (seq : Nat) : Nat :=
  pack [(0, 16, e.bundle), (16, 2, e.slot), (18, 2, e.list), (24, 8, e.status), (32, 16, e.detail), (48, 8, e.opcode),
        (64, 64, e.res0), (128, 64, e.res1), (192, 32, seq)]

/-- Appends one completion entry to the running launch's record; without a launch nothing is written (R238). The row of
the entry is read, checked (R203), and written whole. -/
def State.entry (s : State) (p : Nat) (e : Entry) : State :=
  match (s.tile p).launch with
  | none => s
  | some l =>
    let rej := e.status ≠ stOk ∧ e.status ≠ stCancelled
    let fits := l.entries / 16 + 1 < l.compRows
    let l' : Launch :=
      { l with entries := l.entries + 1, lost := l.lost + (if fits then 0 else 1),
               rejects := l.rejects + (if rej then 1 else 0),
               first := if rej ∧ l.first.isNone then some (e.bundle, e.status) else l.first }
    let s := s.updTile p (fun t => { t with launch := some l' })
    if fits then
      let r := l.compRow + 1 + l.entries / 16
      let (s, x) := readRow s p r
      setRow s p r (row (setFld x.toNat (256 * (l.entries % 16)) 256 (e.bits l.entries)))
    else s.count1 0x0B02 p

/-! ### Mesh, links and free values -/

def State.post (s : State) (m : Mesh) : State := { s with mesh := s.mesh ++ [m] }
def State.send (s : State) (x : Tx) : State := { s with tx := s.tx ++ [x] }

/-- A message on the contacts of the elected strip, which stop working when it fails (R383). -/
def State.stripSend (s : State) (x : Tx) : State := if s.boot.stripFailed then s else s.send x

/-- Curator reports a failed service strip over Arcade once both it and the link are up (R383). -/
def State.tellStrip (s : State) : State :=
  if s.boot.stripFailed ∧ !s.boot.stripTold ∧ s.cur.ready ∧ s.arc.linkUp then
    { s with boot := { s.boot with stripTold := true } }.send .stripLost
  else s

/-- Removes and answers element `k` of the messages on the mesh. -/
def State.take (s : State) (k : Nat) : Option (Mesh × State) :=
  match s.mesh[k]? with
  | some m => some (m, { s with mesh := dropAt s.mesh k })
  | none => none

end Sys2Proof.Machine
end

