-- ==== Sys2Proof/Machine/Pages.lean ====
section
/-! DEFINITION. The rows of HBM and of CXL: channels and pages (R28), reads with the errors that the cells hold and what
each reports (Table 10-6), and the relocation of a page (R354-R356). -/

namespace Sys2Proof.Machine

/-- Rows of presented HBM: 756 GiB (R16, R27). -/
def hbmRows : Nat := 1585446912

/-- Device channel of an HBM row, and its row within the channel (R28). -/
def hbmChannel (r : Nat) : Nat := (r % 256) ^^^ (r / 256 % 256)
def hbmChanRow (r : Nat) : Nat := r / 256

/-- Page of an HBM row within its channel. -/
def hbmPage (r : Nat) : Nat := hbmChanRow r / 128

/-- The HBM row at row `cr` of channel `c`. -/
def hbmRowOf (c cr : Nat) : Nat := 256 * cr + (c ^^^ (cr % 256))

def State.channel (s : State) (c : Nat) : Channel := Sparse.get Channel.reset s.mem.channels c
def State.setChannel (s : State) (c : Nat) (x : Channel) : State :=
  { s with mem := { s.mem with channels := Sparse.set Channel.reset s.mem.channels c x } }

/-- The cells that hold an HBM row: its own, or those of the frame that its page was moved to (R355). -/
def State.hbmCells (s : State) (r : Nat) : Nat :=
  match Sparse.get 0 (s.channel (hbmChannel r)).remap (hbmPage r) with
  | 0 => r
  | f + 1 => 2 ^ 32 + (1024 * hbmChannel r + f) * 128 + hbmChanRow r % 128

/-- Errors of the cells that hold an HBM row. -/
def State.hbmFaultsAt (s : State) (r : Nat) : List MemFault := Sparse.get [] s.mem.hbmFaults (s.hbmCells r)

/-- Contents as read: the bits that are read wrong and not corrected are inverted. -/
def asRead (x : Row) (fs : List MemFault) : Row :=
  fs.foldl (fun x f => if f.corrected then x else row (f.bits.foldl (fun a i => a ^^^ 2 ^ (i % 4096)) x.toNat)) x

/-- Errors that a write leaves. Log entry 79: DESIGN CHOICE. -/
def lasting (fs : List MemFault) : List MemFault := fs.filter (fun f => f.permanent)

/-- A write of an HBM row: the check bits are computed afresh. -/
def State.writeHbm (s : State) (r : Nat) (x : Row) : State :=
  { s with mem := { s.mem with
      hbm := Sparse.set 0 s.mem.hbm r x
      hbmFaults := Sparse.modify [] s.mem.hbmFaults (s.hbmCells r) lasting } }

/-- The 128 rows of a page as they are read: (row, contents). -/
def State.pageRows (s : State) (c page : Nat) : List (Nat × Row) :=
  (List.range 128).map (fun k =>
    let r := hbmRowOf c (128 * page + k)
    (r, asRead (Sparse.get 0 s.mem.hbm r) (s.hbmFaultsAt r)))

/-- Relocation of a page to the channel's next free frame: its 128 rows are copied as read, with new check bits (R355). Without
a frame nothing moves (R356). -/
def State.relocate (s : State) (c page : Nat) : State × Option Nat :=
  let ch := s.channel c
  let what := c + page * 256
  if ch.taken ≥ 768 then ((s.count1 0x1003 c).record 4 0 what 0x3FF, none)
  else
    let moved := s.pageRows c page
    let s := s.setChannel c { remap := Sparse.set 0 ch.remap page (ch.taken + 1), taken := ch.taken + 1,
                              log := ch.log.filter (fun e => e.1 != page) }
    let s := moved.foldl (fun s e => s.writeHbm e.1 e.2) s
    ((s.count1 0x1002 c).record 4 0 what ch.taken, some ch.taken)

/-- A read that the stack reported corrected: the log, and the relocation when the page has met R354. -/
def State.hbmCorrected (s : State) (r : Nat) : State :=
  let c := hbmChannel r
  let page := hbmPage r
  let ch := s.channel c
  let (n, log) := logBump ch.log page
  let s := s.setChannel c { ch with log := log }
  if n ≥ s.live keyHbmReloc then (s.relocate c page).1 else s

/-- A read that the stack could not correct: it counts, and its page is relocated (R354). -/
def State.hbmBad (s : State) (r : Nat) : State :=
  ((s.count1 0x1001 (hbmChannel r)).relocate (hbmChannel r) (hbmPage r)).1

/-- One read of an HBM row with the books of what its cells report (R354, Table 10-6). -/
def State.readHbm (s : State) (r : Nat) : State × Row :=
  let x := Sparse.get 0 s.mem.hbm r
  match s.hbmFaultsAt r with
  | [] => (s, x)
  | fs => (if fs.any (fun f => !f.corrected) then s.hbmBad r else s.hbmCorrected r, asRead x fs)

def cxlKey (x r : Nat) : Nat := x * 2 ^ 33 + r

/-- One read of a CXL row; poison is delivered as read and counted (Table 10-6). -/
def State.readCxl (s : State) (x r : Nat) : State × Row :=
  let v := Sparse.get 0 s.mem.cxl (cxlKey x r)
  match Sparse.get [] s.mem.poison (cxlKey x r) with
  | [] => (s, v)
  | fs => (s.count1 0x1101 x, asRead v fs)

def State.writeCxl (s : State) (x r : Nat) (v : Row) : State :=
  { s with mem := { s.mem with
      cxl := Sparse.set 0 s.mem.cxl (cxlKey x r) v
      poison := Sparse.modify [] s.mem.poison (cxlKey x r) lasting } }

/-- A row that its source could not correct, as read: the bits of one 64-byte line of it are what the spec leaves open.
Log entry 3: DESIGN CHOICE; log entry 36: DEDUCED. -/
def State.spoil (s : State) (x : Row) : State × Row :=
  let (s, n) := s.draw
  (s, row (setFld x.toNat (512 * (Config.choice n % 8)) 512 (Config.padding n 0)))

end Sys2Proof.Machine
end

