-- ==== Sys2Proof/Machine/Operands.lean ====
section
/-! DEFINITION. The operand forms: device addresses (R25-R32, Tables 01-9 to 01-14), regions and extents (R27, R231),
and reading and writing a row by its device address. -/

namespace Sys2Proof.Machine

/-- What a well-formed device address names. -/
inductive Place where
  /-- HBM row. -/
  | hbm (r : Nat)
  /-- Row of the range behind CXL port `x`. -/
  | cxl (x r : Nat)
  /-- Companion row. -/
  | comp (r : Nat)
  /-- Row of a logical tile. -/
  | scr (t r : Nat)
  /-- Offset in a window of a house. -/
  | peer (house t w : Nat) (curator : Bool) (off : Nat)
deriving DecidableEq, Repr

/-- A device address that passes R26; none is BAD_PARAM. -/
def decodeAddr (a : Nat) : Option Place :=
  if a % 512 ≠ 0 ∨ a ≥ 2 ^ 64 then none
  else match fld a 60 4 with
    | 0 => some (.hbm (fld a 9 51))
    | 1 => if fld a 44 16 ≠ 0 then none else some (.cxl (fld a 42 2) (fld a 9 33))
    | 2 => if fld a 52 8 ≠ 0 then none else some (.comp (fld a 9 43))
    | 3 => if fld a 35 25 ≠ 0 then none else some (.scr (fld a 25 10) (fld a 9 16))
    | 4 =>
      if fld a 25 6 ≠ 0 ∨ (bit a 31 ∧ fld a 36 10 ≠ 0) then none
      else some (.peer (fld a 46 14) (fld a 36 10) (fld a 32 4) (bit a 31) (fld a 9 16))
    | _ => none

def inSpan (base n r : Nat) : Bool := decide (base ≤ r) && decide (r < base + n)

/-- Rows from a place to the end of its region, itself included; 0 when nothing is present or backed there (R27).
A peer window's size is known to its writer only from a grant, so a peer place is not bounded here (R221). -/
def State.room (s : State) : Place → Nat
  | .hbm r => hbmRows - r
  | .cxl x r =>
    match s.mem.expanders.find? (fun e => e.port == x && inSpan e.base e.rows r) with
    | some e => e.base + e.rows - r
    | none => 0
  | .comp r =>
    match s.mem.apertures.find? (fun e => inSpan e.base e.rows r) with
    | some e => e.base + e.rows - r
    | none => 0
  | .scr t r =>
    match s.phys t with
    | none => 0
    | some _ =>
      if r < 0x6000 then 0x6000 - r
      else if 0x8000 ≤ r ∧ r < 0x8800 then 512 - (r - 0x8000) % 512
      else 0
  | .peer _ _ _ _ _ => 2 ^ 64

/-- The place `n` rows further on. -/
def Place.plus : Place → Nat → Place
  | .hbm r, n => .hbm (r + n)
  | .cxl x r, n => .cxl x (r + n)
  | .comp r, n => .comp (r + n)
  | .scr t r, n => .scr t (r + n)
  | .peer h t w c off, n => .peer h t w c (off + n)

/-- Status of an address that must be present and hold `n` rows at a stride: 0 is OK (R26, R27). -/
def State.checkExtent (s : State) (a n stride : Nat) : Nat :=
  match decodeAddr a with
  | none => stBadParam
  | some pl =>
    let room := s.room pl
    if room = 0 then stBadParam
    else if n ≠ 0 ∧ (n - 1) * stride ≥ room then stLength
    else stOk

/-- The address lies in one of the tiers. -/
def Place.tier : Place → Nat
  | .hbm _ => 0
  | .cxl _ _ => 1
  | .comp _ => 2
  | .scr _ _ => 3
  | .peer _ _ _ _ _ => 4

/-- The house number of this device. -/
def State.house (s : State) : Nat := s.set.house

/-- Reads one row at a place that is backed, through the checks of its tier (Table 10-6).
Log entry 4: DESIGN CHOICE; log entry 36: DEDUCED. -/
def State.readPlace (s : State) : Place → State × Row
  | .hbm r => s.readHbm r
  | .cxl x r => s.readCxl x r
  | .comp r => (s, Sparse.get 0 s.mem.comp r)
  | .scr t r =>
    match s.phys t with
    | some p => readRow s p r
    | none => (s, 0)
  | .peer _ _ _ _ _ => (s, 0)

/-- Writes one row of the tiers outside the tiles. -/
def State.writeMem (s : State) (pl : Place) (x : Row) : State :=
  match pl with
  | .hbm r => s.writeHbm r x
  | .cxl c r => s.writeCxl c r x
  | .comp r => { s with mem := { s.mem with comp := Sparse.set 0 s.mem.comp r x } }
  | _ => s

/-- Writes consecutive rows at a place, as a result of a command is written (R298). -/
def State.writeResult (s : State) (pl : Place) : List Row → State
  | [] => s
  | x :: xs => State.writeResult (s.writeMem pl x) (pl.plus 1) xs

/-- Two extents share a row: first row, rows and stride of each. An extent runs from its first row to the last row it
reaches (R231). -/
def extentsMeet (a n sa b m sb : Nat) : Bool :=
  decide (0 < n) && decide (0 < m) && decide (a ≤ b + (m - 1) * sb) && decide (b ≤ a + (n - 1) * sa)

/-- Extents overlap within one HBM range, one CXL port or one tile's rows (Table 10-5, check 7). -/
def placesMeet (x : Place) (n sx : Nat) (y : Place) (m sy : Nat) : Bool :=
  match x, y with
  | .hbm a, .hbm b => extentsMeet a n sx b m sy
  | .cxl c a, .cxl d b => c == d && extentsMeet a n sx b m sy
  | .scr t a, .scr u b => t == u && extentsMeet a n sx b m sy
  | _, _ => false

/-- Writes one row at a place that is backed: a tile's row under R163, any other tier directly. -/
def State.writePlace (s : State) (pl : Place) (x : Row) : State :=
  match pl with
  | .scr t r => (match s.phys t with
    | some p => writeRow s p r x
    | none => s)
  | _ => s.writeMem pl x

/-- Writes consecutive rows from a place. -/
def State.writePlaces (s : State) (pl : Place) : List Row → State
  | [] => s
  | x :: xs => State.writePlaces (s.writePlace pl x) (pl.plus 1) xs

/-- Reads `n` consecutive rows from a place, as numbers. -/
def State.readPlaces (s : State) (pl : Place) : Nat → State × List Nat
  | 0 => (s, [])
  | n + 1 =>
    let (s, x) := s.readPlace pl
    let (s, xs) := State.readPlaces s (pl.plus 1) n
    (s, x.toNat :: xs)

end Sys2Proof.Machine
end

