-- ==== Sys2Proof/Machine/Clocks.lean ====
section
/-! DEFINITION. Time: the interval counters of the dies and the one-shot timers that read them (R277), and the trace record
that leaves at a tick. -/

namespace Sys2Proof.Machine

def State.clock (s : State) (d : Nat) : Clock := Sparse.get Clock.reset s.clocks d
def State.setClock (s : State) (d : Nat) (c : Clock) : State := { s with clocks := Sparse.set Clock.reset s.clocks d c }

/-- Die of the elected service strip. -/
def State.stripDie (s : State) : Nat :=
  match s.boot.strip with
  | some true => 7
  | _ => 0

/-- Die of the active Curator, which runs the timers of the commands it holds. Log entry 86: DEDUCED. -/
def State.curDie (s : State) : Nat :=
  match s.cur.active with
  | some p => dieOf p
  | none => 0

/-- Bytes of a trace record as the contacts carry them (R421, R435): in narrow mode, which a second flash on B07 brings, one bit
of TRACE_D0 after another, least significant first; else one byte on TRACE_D0-D7 at each edge of TRACE_CLK. -/
def traceValues (narrow : Bool) (r : BitVec 128) : List Nat :=
  if narrow then tabulate 128 (fun i => fld r.toNat i 1) else (bytesOfNat 16 r.toNat).map (fun b => b.toNat)

/-- What the trace contacts carry between records (R435); the records alone leave as messages. -/
def traceGap : Byte := 0

/-- The oldest trace record leaves, with the strip's interval count as its TIME (Table 18-6). A strip that has failed emits
nothing (R383). Log entry 7: DESIGN CHOICE. -/
def State.emitTrace (s : State) : State :=
  match s.trace.buf with
  | [] => s
  | r :: rest =>
    if s.boot.stripFailed then s else
    let time := (s.clock s.stripDie).count % 2 ^ 32
    ({ s with trace := { s.trace with buf := rest } }).send
      (.trace s.boot.second (traceValues s.boot.second (r + BitVec.ofNat 128 (time <<< 96))))

/-- `n` nanoseconds pass on a die's own counter (R277). -/
def State.pass (s : State) (d n : Nat) : State := s.setClock d { s.clock d with count := ((s.clock d).count + n) % 2 ^ 48 }

/-- Nanoseconds from the reading `c` to the later reading `a`; none when `a` has been reached. -/
def untilReading (c a : Nat) : Nat :=
  let n := (a % 2 ^ 48 + 2 ^ 48 - c % 2 ^ 48) % 2 ^ 48
  if n < 2 ^ 47 then n else 0

/-- Curator is notified. -/
def State.note (s : State) (x : Notice) : State := { s with cur := { s.cur with notices := s.cur.notices ++ [x] } }

/-! ### One-shot timers (R277) -/

/-- Timer `k` starts, or starts again, at the reading of die `d`. -/
def State.startTimer (s : State) (k : Timer) (d : Nat) : State :=
  { s with timers := s.timers.filter (fun e => e.1 != k) ++ [(k, d, (s.clock d).count)] }

/-- The timers of which `f` holds stop. -/
def State.stopTimers (s : State) (f : Timer → Bool) : State := { s with timers := s.timers.filter (fun e => !f e.1) }

/-- The timer of a kept frame of a conversation, of the SEQs that `f` picks. -/
def Timer.retryOf (p h : Nat) (f : Nat → Bool) : Timer → Bool
  | .retry q i seq => q == p && i == h && f seq
  | _ => false

/-- A timer of a conversation or of one of its frames. -/
def Timer.ofConv (p h : Nat) (k : Timer) : Bool := k == .idle p h || k.retryOf p h (fun _ => true)

/-- The interval counter that timer `k` reads comes to `bound` ns after its start; nothing passes where it has come that far, or
where no such timer runs. -/
def State.ripen (s : State) (k : Timer) (bound : Nat) : State :=
  match s.timers.find? (fun e => e.1 == k) with
  | none => s
  | some (_, d, r) => s.pass d (untilReading (s.clock d).count (r + bound))

/-- Nanoseconds from the reading `c` to the deadline held as bits [19:0]; none when it has passed, by at most 2^19 ns (R270). -/
def untilDeadline (c deadline : Nat) : Nat :=
  let n := (deadline % 2 ^ 20 + 2 ^ 20 - c % 2 ^ 20) % 2 ^ 20
  if n ≤ 2 ^ 19 then n else 0

end Sys2Proof.Machine
end

