-- ==== Sys2Proof/Machine/Num.lean ====
section
/-! DEFINITION. Numbers: the element formats (R59-R62), exact values, rounding (R64, R65, R74-R76), placement on the
FX64 grid (R66-R70), and the vector engine's functions (R182, R437). -/

namespace Sys2Proof.Machine

/-- The value of an element: not a number, a signed infinity, or the exact number (-1)^neg * m * 2^q. -/
inductive Val where
  | nan
  | inf (neg : Bool)
  | fin (neg : Bool) (m : Nat) (q : Int)
deriving DecidableEq, Repr

/-- Exponent bits, fraction bits and bias of a floating format code (Table 03-2). -/
def fmtParams : Nat → Nat × Nat × Nat
  | 0 => (4, 3, 7)
  | 1 => (5, 2, 15)
  | 2 => (2, 1, 1)
  | 3 => (2, 3, 1)
  | 4 => (3, 2, 3)
  | 6 => (8, 7, 127)
  | 7 => (5, 10, 15)
  | _ => (8, 23, 127)

/-- Bits of one element of a format code. -/
def fmtBits : Nat → Nat
  | 2 => 4
  | 3 => 6
  | 4 => 6
  | 6 => 16
  | 7 => 16
  | 9 => 32
  | 10 => 64
  | _ => 8

/-- Bytes of one element of an output format code (0x0, 0x1, 0x6-0xA). -/
def fmtBytes (c : Nat) : Nat := fmtBits c / 8

/-- A format that carries an E8M0 scale for each 32 elements of K (R61). -/
def isMx (c : Nat) : Bool := c == 2 || c == 3 || c == 4 || c == 5

def isFp8 (c : Nat) : Bool := c == 0 || c == 1

def isOperandFmt (c : Nat) : Bool := c ≤ 8
def isOutputFmt (c : Nat) : Bool := c == 0 || c == 1 || (6 ≤ c && c ≤ 10)

/-- The value of a floating element (R60): E4M3 has no infinity, the MX elements have neither infinity nor NaN. -/
def floatVal (c x : Nat) : Val :=
  let (eb, fb, bias) := fmtParams c
  let neg := bit x (eb + fb)
  let e := fld x fb eb
  let f := fld x 0 fb
  let fin := if e = 0 then Val.fin neg f (1 - (bias : Int) - fb) else Val.fin neg (f + 2 ^ fb) ((e : Int) - bias - fb)
  if c = 2 ∨ c = 3 ∨ c = 4 then fin
  else if c = 0 then (if e = 15 ∧ f = 7 then Val.nan else fin)
  else if e = 2 ^ eb - 1 then (if f = 0 then Val.inf neg else Val.nan)
  else fin

/-- The value of an operand or output element of format `c` before any block scale (R60, R62). -/
def elemVal (c x : Nat) : Val :=
  if c = 5 then (let v := signed 8 x; Val.fin (decide (v < 0)) v.natAbs (-6))
  else if c = 8 then (let v := signed 8 x; Val.fin (decide (v < 0)) v.natAbs 0)
  else floatVal c x

/-- The element times its block's scale 2^(x - 127); a scale of 0xFF makes it NaN (R61). -/
def scaleVal (scale : Nat) : Val → Val
  | .nan => .nan
  | .inf n => if scale = 255 then .nan else .inf n
  | .fin n m q => if scale = 255 then .nan else .fin n m (q + scale - 127)

def Val.isZero : Val → Bool
  | .fin _ m _ => m == 0
  | _ => false

def Val.neg : Val → Val
  | .nan => .nan
  | .inf n => .inf (!n)
  | .fin n m q => .fin (!n) m q

/-- The exact product, with the special values of IEEE 754. -/
def Val.mul : Val → Val → Val
  | .nan, _ => .nan
  | _, .nan => .nan
  | .inf a, .inf b => .inf (a != b)
  | .inf a, .fin b m _ => if m = 0 then .nan else .inf (a != b)
  | .fin a m _, .inf b => if m = 0 then .nan else .inf (a != b)
  | .fin a m q, .fin b n r => .fin (a != b) (m * n) (q + r)

/-- A signed integer times 2^q as a value; `z` is the sign of a zero. -/
def ofInt (z : Bool) (v : Int) (q : Int) : Val :=
  if v = 0 then .fin z 0 0 else .fin (decide (v < 0)) v.natAbs q

/-- The signed significand of a finite value at exponent `q`, which must not exceed its own. -/
def sigAt (neg : Bool) (m : Nat) (q0 q : Int) : Int :=
  let v : Int := ((m <<< (q0 - q).toNat : Nat) : Int)
  if neg then -v else v

/-- The exact sum. A zero sum of two zeros of one sign keeps it; every other zero sum is +0, as round-to-nearest gives. -/
def Val.add : Val → Val → Val
  | .nan, _ => .nan
  | _, .nan => .nan
  | .inf a, .inf b => if a = b then .inf a else .nan
  | .inf a, .fin _ _ _ => .inf a
  | .fin _ _ _, .inf b => .inf b
  | .fin a m q, .fin b n r =>
    if m = 0 ∧ n = 0 then .fin (a && b) 0 0
    else if m = 0 then .fin b n r
    else if n = 0 then .fin a m q
    else
      let e := min q r
      ofInt false (sigAt a m q e + sigAt b n r e) e

/-! ### Rounding -/

/-- The count of units 2^e nearest below a magnitude m * 2^q, and whether the rounding mode takes the next one:
0 nearest even, 1 toward zero, 2 stochastic with the 32-bit word `u` (R75), 3 away from zero. -/
def roundUnits (mode u m : Nat) (q e : Int) : Nat :=
  if e ≤ q then m <<< (q - e).toNat
  else
    let k := (e - q).toNat
    let n := m >>> k
    let r := m % 2 ^ k
    if r = 0 then n
    else match mode with
      | 0 => if 2 * r > 2 ^ k ∨ (2 * r = 2 ^ k ∧ n % 2 = 1) then n + 1 else n
      | 1 => n
      | 2 => if u < r * 2 ^ 32 / 2 ^ k then n + 1 else n
      | _ => n + 1

/-- The magnitude pattern of a floating format that a magnitude rounds to, with an unbounded exponent range (R76). -/
def roundPattern (c mode u m : Nat) (q : Int) : Nat :=
  let (_, fb, bias) := fmtParams c
  let emin : Int := 1 - bias
  if m = 0 then 0
  else
    let e := max ((bitLen m : Int) - 1 + q) emin
    let n := roundUnits mode u m q (e - fb)
    (e - emin).toNat * 2 ^ fb + n

/-- Pattern of the largest finite magnitude. -/
def maxPattern : Nat → Nat
  | 0 => 0x7E
  | 1 => 0x7B
  | 6 => 0x7F7F
  | 7 => 0x7BFF
  | _ => 0x7F7FFFFF

/-- Pattern of +infinity, for the formats that have one. -/
def infPattern : Nat → Nat
  | 1 => 0x7C
  | 6 => 0x7F80
  | 7 => 0x7C00
  | _ => 0x7F800000

/-- The canonical NaN of Table 03-8. -/
def nanPattern : Nat → Nat
  | 0 => 0x7F
  | 1 => 0x7F
  | 6 => 0x7FC0
  | 7 => 0x7E00
  | _ => 0x7FC00000

def signBit (c : Nat) (neg : Bool) : Nat := if neg then 2 ^ (fmtBits c - 1) else 0

/-- What a conversion delivers: the bits, a finite element beyond the largest finite (ctr.close.saturated), a NaN or
infinity to INT8 (ctr.close.nan_to_int). -/
structure Conv8 where
  bits : Nat
  sat  : Bool
  nanI : Bool
deriving DecidableEq, Repr

/-- The conversion of a value to an output format under a rounding mode (R76, Table 03-8). -/
def convert (c mode u : Nat) (v : Val) : Conv8 :=
  if c = 8 then
    match v with
    | .nan => ⟨0, false, true⟩
    | .inf n => ⟨if n then 0x80 else 0x7F, false, true⟩
    | .fin n m q =>
      let k := roundUnits mode u m q 0
      if n then (if k > 128 then ⟨0x80, true, false⟩ else ⟨(256 - k) % 256, false, false⟩)
      else (if k > 127 then ⟨0x7F, true, false⟩ else ⟨k, false, false⟩)
  else
    match v with
    | .nan => ⟨nanPattern c, false, false⟩
    | .inf n => ⟨(if c = 0 then maxPattern 0 else infPattern c) + signBit c n, false, false⟩
    | .fin n m q =>
      let p := roundPattern c mode u m q
      if p > maxPattern c then
        ⟨(if c = 0 ∨ mode = 1 then maxPattern c else infPattern c) + signBit c n, true, false⟩
      else ⟨p + signBit c n, false, false⟩

/-- FP32 pattern of a value rounded to nearest even. -/
def toF32 (v : Val) : Nat := (convert 9 0 0 v).bits
def toBf16 (v : Val) : Nat := (convert 6 0 0 v).bits
def f32Val (x : Nat) : Val := floatVal 9 x
def bf16Val (x : Nat) : Val := floatVal 6 x

/-- A result of an accumulation: zero is delivered as +0 (R64, R65). -/
def plusZero (c x : Nat) : Nat := if x = signBit c true then 0 else x

/-- The fused multiply-add on the column path: the product exact, one rounding, +0 for every zero (R64). -/
def accFma (sum : Nat) (p : Val) : Nat := plusZero 9 (toF32 (Val.add (f32Val sum) p))

/-- Addition of two FP32 sums in accumulation (R64). -/
def accAdd32 (a b : Nat) : Nat := plusZero 9 (toF32 (Val.add (f32Val a) (f32Val b)))

/-- The update of a BF16-packed group element by an FP32 column sum (R65). -/
def accAddBf16 (a s : Nat) : Nat := plusZero 6 (toBf16 (f32Val (toF32 (Val.add (bf16Val a) (f32Val s)))))

/-! ### FX64 -/

/-- An integer shifted right by `k` with round-to-nearest-even. -/
def shrRne (v : Int) (k : Nat) : Int :=
  let n := roundUnits 0 0 v.natAbs 0 k
  if v < 0 then -(n : Int) else n

/-- The contribution of the product P * 2^q to a group of anchor `a`, modulo 2^64 (R67). -/
def place (p : Int) (q a : Int) : Nat :=
  if p = 0 then 0
  else if a ≤ q then (if (q - a).toNat ≥ 64 then 0 else wrap 64 (p * ((2 ^ (q - a).toNat : Nat) : Int)))
  else wrap 64 (shrRne p (a - q).toNat)

/-- Placement discarded non-zero bits (ctr.fx.inexact, R70). -/
def placeInexact (p : Int) (q a : Int) : Bool :=
  decide (q < a) && decide (p.natAbs % 2 ^ (a - q).toNat ≠ 0)

/-- Width w of a pair (Table 03-5): the sum of the significand widths, or 15 for integer pairs. -/
def sigWidth : Nat → Nat
  | 0 => 4
  | 1 => 3
  | 2 => 2
  | 3 => 4
  | 4 => 3
  | _ => 0

def pairWidth (ca cw : Nat) : Nat := if ca = 5 ∨ ca = 8 then 15 else sigWidth ca + sigWidth cw

/-- The natural anchor of a pair (Table 03-6). -/
def naturalAnchor (ca cw : Nat) : Option Int :=
  if ca = 8 ∧ cw = 8 then some 0
  else if ca = 0 ∧ cw = 0 then some (-18)
  else if ca = 1 ∧ cw = 1 then some (-7)
  else if isFp8 ca && isFp8 cw then some (-14)
  else none

/-- The pairs of Table 03-3. -/
def pairOk (ca cw : Nat) : Bool :=
  (isFp8 ca && isFp8 cw) || (ca == 2 && cw == 2) || ((ca == 3 || ca == 4) && (cw == 3 || cw == 4)) ||
  (ca == cw && (ca == 5 || ca == 6 || ca == 7 || ca == 8))

/-- The combinations of Table 03-3 with an accumulator (0 BF16-packed, 1 FP32, 2 FX64). -/
def comboOk (ca cw acc : Nat) : Bool :=
  pairOk ca cw && (if ca == 6 || ca == 7 then acc == 1 else acc ≤ 2)

/-- The outputs that an accumulator's close may take (Table 03-9). -/
def closeFmtOk (acc out : Nat) : Bool := isOutputFmt out && (out != 10 || acc == 2)

/-- The exact value of an FX64 element of anchor `a`. -/
def fxVal (x : Nat) (a : Int) : Val := ofInt false (signed 64 x) a

/-- The value of a group element. -/
def accVal (fmt x : Nat) (anchor : Int) : Val :=
  match fmt with
  | 0 => bf16Val x
  | 1 => f32Val x
  | _ => fxVal x anchor

def accBytes : Nat → Nat
  | 0 => 2
  | 1 => 4
  | _ => 8

/-- FX64 realigned from anchor `a` to anchor `b` (Table 03-9), and whether non-zero bits were discarded. -/
def realign (x : Nat) (a b : Int) : Nat × Bool :=
  let v := signed 64 x
  if b ≤ a then (if (a - b).toNat ≥ 64 then 0 else wrap 64 (v * ((2 ^ (a - b).toNat : Nat) : Int)), false)
  else (wrap 64 (shrRne v (b - a).toNat), decide (v.natAbs % 2 ^ (b - a).toNat ≠ 0))

/-! ### Sums of one output element -/

/-- What a run of products did to an FX64 group: discarded bits, left the window upward, met a special operand. -/
structure FxFlags where
  inexact : Bool
  range   : Bool
  special : Bool
deriving DecidableEq, Repr

def FxFlags.none : FxFlags := ⟨false, false, false⟩
def FxFlags.or (a b : FxFlags) : FxFlags := ⟨a.inexact || b.inexact, a.range || b.range, a.special || b.special⟩

/-- Adds the product of two elements to an FX64 sum (R67, R70, R73). A product with a zero operand never counts as out of
range, which the spec does not say. Log entry 81: DESIGN CHOICE. -/
def fxStep (anchor : Int) (w : Nat) (s : Nat × FxFlags) (x y : Val) : Nat × FxFlags :=
  match x, y with
  | .fin a m q, .fin b n r =>
    let p : Int := if a != b then -((m * n : Nat) : Int) else ((m * n : Nat) : Int)
    if p = 0 then s
    else ((s.1 + place p (q + r) anchor) % 2 ^ 64,
          s.2.or ⟨placeInexact p (q + r) anchor, decide (q + r > anchor + 39 - w), false⟩)
  | _, _ => (s.1, s.2.or ⟨false, false, true⟩)

/-- The sum that an array column delivers for a list of operand pairs in their order: FX64 modulo 2^64, otherwise FP32
from +0 (R37, R64, R67). -/
def columnSum (fmt : Nat) (anchor : Int) (w : Nat) (l : List (Val × Val)) : Nat × FxFlags :=
  if fmt = 2 then l.foldl (fun s e => fxStep anchor w s e.1 e.2) (0, FxFlags.none)
  else (l.foldl (fun s e => accFma s (Val.mul e.1 e.2)) 0, FxFlags.none)

/-- One contribution to a group element (R148). -/
def contribute (fmt old sum : Nat) : Nat :=
  match fmt with
  | 0 => accAddBf16 old sum
  | 1 => accAdd32 old sum
  | _ => (old + sum) % 2 ^ 64

/-! ### Functions of the vector engine (R182) -/

def ln2Fix : Nat := 0xb17217f7d1cf79abc9e3b39803f2f6af40f343267298b62d8a0d175b8baafa2be7b876206debac98

/-- Terms r^k / k! of e^r in fixed point with 320 fraction bits, from term `t` of index `k`. -/
def expTerms (r : Nat) : Nat → Nat → Nat → Nat → Nat
  | 0, _, _, s => s
  | n + 1, k, t, s =>
    let t := (t * r) >>> 320
    let t := t / k
    expTerms r n (k + 1) t (s + t)

/-- e^x rounded once to FP32 nearest even; the fraction bits kept decide every rounding. -/
def expF32 (v : Val) : Nat :=
  match v with
  | .nan => nanPattern 9
  | .inf n => if n then 0 else infPattern 9
  | .fin neg m q =>
    if m = 0 then 0x3F800000
    else if (bitLen m : Int) + q > 8 then (if neg then 0 else infPattern 9)
    else
      let x : Int := sigAt neg m q (-320)
      let n := x / (ln2Fix : Int)
      let r := (x - n * ln2Fix).toNat
      let s := expTerms r 80 1 (1 <<< 320) (1 <<< 320)
      toF32 (.fin false (2 * s + 1) (n - 321))

/-- 1/x rounded once to FP32 nearest even. -/
def rcpF32 (v : Val) : Nat :=
  match v with
  | .nan => nanPattern 9
  | .inf n => signBit 9 n
  | .fin neg m q =>
    if m = 0 then infPattern 9 + signBit 9 neg
    else
      let k := bitLen m + 64
      let n := 2 ^ k / m
      let sticky := if 2 ^ k % m = 0 then 0 else 1
      toF32 (.fin neg (2 * n + sticky) (-q - k - 1))

/-- The integer square root, one bit at a time from bit `n - 1` downward. -/
def isqrtLoop (x : Nat) : Nat → Nat → Nat
  | 0, s => s
  | n + 1, s => let s' := s + 2 ^ n; if s' * s' ≤ x then isqrtLoop x n s' else isqrtLoop x n s

def isqrt (x : Nat) : Nat := isqrtLoop x (bitLen x / 2 + 1) 0

/-- 1/sqrt(x) rounded once to FP32 nearest even. -/
def rsqF32 (v : Val) : Nat :=
  match v with
  | .nan => nanPattern 9
  | .inf n => if n then nanPattern 9 else 0
  | .fin neg m q =>
    if m = 0 then infPattern 9 + signBit 9 neg
    else if neg then nanPattern 9
    else
      let odd := q % 2 = 1
      let m := if odd then 2 * m else m
      let h := (if odd then q - 1 else q) / 2
      let k := bitLen m + 64
      let d := 2 ^ (2 * k) / m
      let s := isqrt d
      let sticky := if s * s * m = 2 ^ (2 * k) then 0 else 1
      toF32 (.fin false (2 * s + sticky) (-h - k - 1))

/-- The square root rounded toward +infinity in FP32 (R136), of a magnitude m * 2^q. -/
def sqrtUp (m : Nat) (q : Int) : Nat :=
  let odd := q % 2 = 1
  let m := if odd then 2 * m else m
  let h := (if odd then q - 1 else q) / 2
  let m' := m <<< 64
  let s := isqrt m'
  let sticky := if s * s = m' then 0 else 1
  (convert 9 3 0 (.fin false (2 * s + sticky) (h - 33))).bits

/-- FP32 of a non-negative value rounded toward +infinity. -/
def toF32Up (v : Val) : Nat := (convert 9 3 0 v).bits

/-- Order of two values: negative, zero, positive, or none when unordered. The zeros are equal. -/
def Val.cmp : Val → Val → Option Int
  | .nan, _ => none
  | _, .nan => none
  | .inf a, .inf b => some (b2n b - b2n a)
  | .inf a, .fin _ _ _ => some (if a then -1 else 1)
  | .fin _ _ _, .inf b => some (if b then 1 else -1)
  | .fin a m q, .fin b n r =>
    let e := min q r
    some (sigAt a m q e - sigAt b n r e)

/-- COND of vec.cmp: 0 eq, 1 ne, 2 lt, 3 le, 4 gt, 5 ge; unordered operands meet ne only (R437). -/
def condHolds (cond : Nat) : Option Int → Bool
  | none => cond == 1
  | some d =>
    match cond with
    | 0 => decide (d = 0)
    | 1 => decide (d ≠ 0)
    | 2 => decide (d < 0)
    | 3 => decide (d ≤ 0)
    | 4 => decide (d > 0)
    | _ => decide (d ≥ 0)

/-- IEEE 754-2019 maximum of two floating patterns of format `c` (R437). -/
def floatMax (c a b : Nat) : Nat :=
  match Val.cmp (floatVal c a) (floatVal c b) with
  | none => nanPattern c
  | some d => if d > 0 then a else if d < 0 then b else a &&& b

/-- IEEE 754-2019 minimum of two floating patterns of format `c` (R437). -/
def floatMin (c a b : Nat) : Nat :=
  match Val.cmp (floatVal c a) (floatVal c b) with
  | none => nanPattern c
  | some d => if d < 0 then a else if d > 0 then b else a ||| b

/-- Pairwise combination in the canonical order of R160. -/
def pairLevel {α : Type} (f : α → α → α) : List α → List α
  | a :: b :: l => f a b :: pairLevel f l
  | l => l

def pairReduce {α : Type} (f : α → α → α) : Nat → List α → List α
  | 0, l => l
  | n + 1, l => pairReduce f n (pairLevel f l)

end Sys2Proof.Machine
end

