-- ==== Sys2Proof/Machine/Program.lean ====
section
/-! DEFINITION. Tile programs: bundles and slots (R162, R166, R191), the checks made at load (R168, R181, R192), the
sequencer's choice of what issues next (R164, R187), and what issuing and completing an operation do (R167, R169). -/

namespace Sys2Proof.Machine

/-! ### Operations of a bundle -/

/-- An operation as it issues. A compatibility operation is brought to the layout of a native slot: its fields start
at bit 16. -/
structure Op where
  code   : Nat
  bits   : Nat
  bundle : Nat
  slot   : Nat
  list   : Nat
  /-- x(IDX) of the bundle. -/
  idx    : Nat
  /-- The bundle as it was fetched. -/
  raw    : Nat
  compat : Bool
deriving DecidableEq, Repr

def Op.f (o : Op) (lo w : Nat) : Nat := fld o.bits lo w

/-- An indexed field (R169): none when the result falls outside the field. -/
def Op.ix (o : Op) (lo w : Nat) : Option Nat :=
  let v := (o.f lo w + o.idx) % 2 ^ (w + 1)
  if v < 2 ^ w then some v else none

/-- An indexed descriptor reference of 24 bits: its row part, bits [15:0], is indexed (R115, R170). -/
def Op.ref (o : Op) (lo : Nat) : Option Nat :=
  (o.ix lo 16).map (fun r => r + o.f (lo + 16) 8 <<< 16)

def Op.doneSig (o : Op) : Option Nat := if bit o.bits 13 then some (o.f 8 5) else none
def Op.crec (o : Op) : Bool := bit o.bits 14

/-- Bits of the slot an operation needs, and the first bit above its last field; none for a code of no operation
(Tables 08-4, 08-5, 08-7, 08-10). -/
def opShape : Nat → Option (Nat × Nat)
  | 0x00 => some (80, 16)
  | 0x01 => some (80, 16)
  | 0x02 => some (80, 64)
  | 0x03 => some (80, 60)
  | 0x04 => some (80, 30)
  | 0x05 => some (80, 43)
  | 0x06 => some (80, 32)
  | 0x07 => some (80, 28)
  | 0x08 => some (80, 70)
  | 0x10 => some (80, 57)
  | 0x11 => some (80, 53)
  | 0x12 => some (80, 53)
  | 0x20 => some (240, 224)
  | 0x21 => some (496, 428)
  | 0x28 => some (240, 224)
  | 0x29 => some (160, 109)
  | 0x2A => some (80, 34)
  | 0x2B => some (80, 53)
  | 0x30 => some (80, 78)
  | 0x31 => some (80, 78)
  | 0x32 => some (80, 78)
  | 0x33 => some (80, 49)
  | 0x34 => some (80, 65)
  | 0x35 => some (240, 211)
  | 0x38 => some (80, 40)
  | 0x39 => some (80, 40)
  | 0x40 => some (80, 49)
  | 0x41 => some (80, 49)
  | 0x48 => some (80, 36)
  | 0x49 => some (80, 38)
  | 0x4F => some (80, 41)
  | 0x50 => some (80, 41)
  | 0x51 => some (160, 142)
  | 0x52 => some (160, 101)
  | 0x53 => some (160, 136)
  | 0x60 => some (80, 35)
  | 0x61 => some (80, 19)
  | c => if 0x42 ≤ c ∧ c ≤ 0x4E then some (80, 33) else none

/-- First bit above the last field of a compatibility operation (Table 08-15), counted in the native slot layout. -/
def compatShape : Nat → Option Nat
  | 0x00 => some 16
  | 0x01 => some 16
  | 0x02 => some 64
  | 0x03 => some 60
  | 0x05 => some 43
  | 0x06 => some 32
  | 0x07 => some 28
  | 0x10 => some 57
  | 0x11 => some 53
  | 0x20 => some 87
  | 0x21 => some 36
  | 0x60 => some 35
  | 0x61 => some 19
  | c => if 0x40 ≤ c ∧ c ≤ 0x4F then (opShape c).map (fun e => e.2) else none

/-- TYPEs a vector operation allows (Table 08-10): 0 FP32, 1 FX64, 2 BF16. -/
def vecTypeOk (code type : Nat) : Bool :=
  if code = 0x44 ∨ code = 0x45 ∨ (0x4A ≤ code ∧ code ≤ 0x4C) ∨ code = 0x50 then type == 0 || type == 2
  else if code = 0x52 then type == 0
  else if code = 0x53 then type == 0 || type == 1
  else type ≤ 2

/-- Bytes of an element of a vector TYPE. -/
def typeBytes : Nat → Nat
  | 0 => 4
  | 1 => 8
  | _ => 2

/-- PART of vec.cvt lies in its range (R438). -/
def partOk (type outfmt part : Nat) : Bool :=
  let i := typeBytes type
  let o := fmtBytes outfmt
  part < (if o > i then o / i else i / o)

/-- The group field block at `lo` of an operation whose operand pair is one of `pairs`: the load refuses it when none of them can
pass (R63, R68, R175). A sparse operand's format stands in its descriptor, so each format is possible there, which is how the
model reads the check of R63 at load for such a pair. Log entry 20: DESIGN CHOICE. -/
def groupStaticOk (x lo : Nat) (pairs : List (Nat × Nat)) : Bool :=
  let fmt := fld x (lo + 7) 2
  let src := fld x (lo + 43) 2
  if bit x (lo + 5) then
    src ≤ 2 && pairs.any (fun q => comboOk q.1 q.2 fmt && !(fmt == 2 && src == 0 && (naturalAnchor q.1 q.2).isNone))
  else
    fld x (lo + 6) 66 == 0 && fld x (lo + 97) 16 == 0 && pairs.any (fun q => pairOk q.1 q.2)

/-- The group field block at `lo` of acc.open, which has no operand pair and so no natural anchor (R68). -/
def openStaticOk (x lo : Nat) : Bool :=
  fld x (lo + 7) 2 ≤ 2 && fld x (lo + 43) 2 ≤ 2 && !(fld x (lo + 7) 2 == 2 && fld x (lo + 43) 2 == 0)

/-- The formats that an operand of sp.mm may have, as far as the operation tells. -/
def operandFmts (sparse : Bool) (fmt : Nat) : List Nat := if sparse then (List.range 16).filter isOperandFmt else [fmt]

/-- The load checks of one operation beyond its code, width and reserved bits (R168), PRED = 1 beside A_SP or B_SP among them
(R132). `targets` says that a bundle index may be branched to. Log entry 20: DESIGN CHOICE. -/
def opStaticOk (code x : Nat) (targets : Nat → Bool) : Bool :=
  match code with
  | 0x05 => fld x 16 3 ≤ 5 && targets (fld x 27 16)
  | 0x06 => targets (fld x 16 16)
  | 0x07 => fld x 20 8 ≤ 8
  | 0x20 => fld x 20 2 ≠ 3 && groupStaticOk x 111 [(fld x 22 4, fld x 26 4)]
  | 0x21 =>
    fld x 426 2 ≠ 3 && fld x 411 15 == 0 && fld x 216 2 ≠ 3 && fld x 212 4 ≤ 10 &&
    (if bit x 20 then fld x 41 5 == 0 && fld x 145 15 == 0 && fld x 160 24 == 0 else fld x 45 4 == 0) &&
    (if bit x 21 then fld x 65 5 == 0 && fld x 184 10 == 0 && fld x 160 24 == 0 else fld x 69 4 == 0) &&
    (if bit x 22 then fld x 89 5 == 0 else fld x 73 24 == 0) &&
    (if bit x 23 then fld x 113 5 == 0 && bit x 22 else fld x 97 24 == 0) &&
    (if bit x 24 then fld x 137 5 == 0 && !bit x 20 && !bit x 21 else fld x 121 24 == 0) &&
    (bit x 24 || bit x 211 == (bit x 22 || bit x 23)) &&
    groupStaticOk x 298 ((operandFmts (bit x 20) (fld x 41 4)).flatMap (fun a =>
      (operandFmts (bit x 21) (fld x 65 4)).map (fun w => (a, w))))
  | 0x28 => fld x 18 93 == 0 && bit x 116 && openStaticOk x 111
  | 0x29 => fld x 23 4 ≤ 10 && fld x 27 2 ≠ 3
  | 0x38 => fld x 32 5 == 0
  | 0x39 => fld x 32 5 == 0
  | 0x51 => vecTypeOk code (fld x 16 2) && isOutputFmt (fld x 33 4) && fld x 37 2 ≠ 3 &&
            partOk (fld x 16 2) (fld x 33 4) (fld x 139 3) && (fld x 33 4 ≠ 10 || fld x 16 2 == 1) &&
            (fld x 16 2 == 1 || fld x 39 16 == 0) && (fld x 33 4 == 10 || fld x 55 16 == 0)
  | 0x48 => vecTypeOk code (fld x 16 2) && fld x 33 3 ≤ 5
  | c => if 0x40 ≤ c ∧ c ≤ 0x53 then vecTypeOk c (fld x 16 2) else true

/-- The load checks of one compatibility operation (R192, R193). -/
def compatStaticOk (code x : Nat) (targets : Nat → Bool) : Bool :=
  match code with
  | 0x05 => fld x 16 3 ≤ 5 && targets (fld x 27 16)
  | 0x06 => targets (fld x 16 16)
  | 0x07 => fld x 20 8 ≤ 7
  | 0x20 =>
    let a := fld x 20 4
    let w := fld x 24 4
    comboOk a w (if bit x 28 then 0 else 1) && !isMx a && !(a == 8 && bit x 28)
  | 0x21 => (let f := fld x 21 4; f == 0 || f == 1 || (6 ≤ f && f ≤ 9)) && fld x 25 2 ≤ 1
  | 0x48 => (fld x 16 2 == 0 || fld x 16 2 == 2) && fld x 33 3 ≤ 5
  | c => if 0x40 ≤ c ∧ c ≤ 0x4F then fld x 16 2 == 0 || fld x 16 2 == 2 else true

/-! ### Bundles -/

/-- A bundle: its fence, IDX, its slots as (slot, bits, width), and the index of the next bundle. -/
structure Bundle where
  fence : Bool
  idx   : Nat
  slots : List (Nat × Nat)
  next  : Nat
deriving DecidableEq, Repr

/-- The program rows seen as a function of the row number. -/
abbrev ProgRows := Nat → Nat

/-- Bundle `i` of a program (R162), and of a compatibility program (R191). -/
def bundleBits (g : ProgRows) (base i : Nat) : Nat := fld (g (base + i / 16)) (256 * (i % 16)) 256
def compatBits (g : ProgRows) (base i : Nat) : Nat := fld (g (base + i / 32)) (128 * (i % 32)) 128

/-- Slot widths of a LAYOUT. -/
def layoutWidths : Nat → List Nat
  | 0 => [80, 80, 80]
  | 1 => [80, 160]
  | 2 => [240]
  | _ => [496]

/-- What the sequencer fetches for bundle `i`: two native bundles, since a long operation takes both, or one compatibility
bundle. Log entry 14: DEDUCED. -/
def fetchBundle (compat : Bool) (g : ProgRows) (base i : Nat) : Nat :=
  if compat then compatBits g base i else bundleBits g base i + bundleBits g base (i + 1) <<< 256

/-- The native bundle at index `i` (R166). -/
def nativeBundle (raw i : Nat) : Bundle :=
  let fence := bit raw 2
  let idx := fld raw 3 4
  match fld raw 0 2 with
  | 0 => ⟨fence, idx, [(fld raw 16 80, 80), (fld raw 96 80, 80), (fld raw 176 80, 80)], i + 1⟩
  | 1 => ⟨fence, idx, [(fld raw 16 80, 80), (fld raw 96 160, 160)], i + 1⟩
  | 2 => ⟨fence, idx, [(fld raw 16 240, 240)], i + 1⟩
  | _ => ⟨fence, idx, [(fld raw 16 496, 496)], i + 2⟩

/-- The compatibility bundle at index `i` (Table 08-14), brought to the native slot layout. -/
def compatBundle (raw i : Nat) : Bundle :=
  ⟨bit raw 15, fld raw 16 4, [(fld raw 0 15 + fld raw 20 108 <<< 16, 124)], i + 1⟩

def parseBundle (compat : Bool) (raw i : Nat) : Bundle := if compat then compatBundle raw i else nativeBundle raw i

def bundleAt (compat : Bool) (g : ProgRows) (base i : Nat) : Bundle := parseBundle compat (fetchBundle compat g base i) i

/-- Status of one operation at load: 0 passes. Log entry 20: DESIGN CHOICE. -/
def checkOp (compat : Bool) (targets : Nat → Bool) (x width : Nat) : Nat :=
  let code := fld x 0 8
  if compat then
    match compatShape code with
    | none => stBadOpcode
    | some n => if x >>> n ≠ 0 ∨ !compatStaticOk code x targets then stBadParam else stOk
  else
    match opShape code with
    | none => stBadOpcode
    | some (w, n) => if w > width ∨ bit x 15 ∨ x >>> n ≠ 0 ∨ !opStaticOk code x targets then stBadParam else stOk

/-- The first failing status of a list of operations. -/
def checkOps (compat : Bool) (targets : Nat → Bool) : List (Nat × Nat) → Nat
  | [] => stOk
  | (x, w) :: l =>
    let st := checkOp compat targets x w
    if st = stOk then checkOps compat targets l else st

/-- Indices of the second bundles of long operations, from bundle `i` on, at most `n` bundles. -/
def secondBundles (g : ProgRows) (base last : Nat) : Nat → Nat → List Nat
  | 0, _ => []
  | n + 1, i =>
    if i ≥ last then []
    else if fld (bundleBits g base i) 0 2 = 3 then (i + 1) :: secondBundles g base last n (i + 2)
    else secondBundles g base last n (i + 1)

/-- Checks the bundles from `i` on: the status and the bundle index of the first failure, or none. A long operation in the last
bundle, which has no next one (R166), fails with BAD_PARAM there. Log entry 20: DESIGN CHOICE. -/
def checkBundles (compat : Bool) (g : ProgRows) (base last : Nat) (targets : Nat → Bool) : Nat → Nat → Option (Nat × Nat)
  | 0, _ => none
  | n + 1, i =>
    if i ≥ last then none
    else
      let b := bundleAt compat g base i
      let hdr := if compat then 0 else fld (bundleBits g base i) 7 9
      if hdr ≠ 0 ∨ b.next > last then some (stBadParam, i)
      else
        let st := checkOps compat targets b.slots
        if st ≠ stOk then some (st, i) else checkBundles compat g base last targets n b.next

/-- Bundles of a program of `rows` rows. -/
def progBundles (compat : Bool) (rows : Nat) : Nat := rows * (if compat then 32 else 16)

/-- The program check of R168: none, or the status and the bundle index of the first failure. -/
def checkProgram (compat : Bool) (g : ProgRows) (base rows : Nat) : Option (Nat × Nat) :=
  let last := progBundles compat rows
  let seconds := if compat then [] else secondBundles g base last last 0
  checkBundles compat g base last (fun t => decide (t < last) && !seconds.contains t) last 0

/-- The rows of a tile as a read delivers them, through the decoder (R203). Log entry 14: DEDUCED. -/
def Tile.prog (t : Tile) : ProgRows := fun r =>
  if Sparse.get false t.fresh r then 0
  else
    let (b, br) := bankOf r
    (senseRow (Sparse.get 0 t.rows r) (t.faultsAt b br)).data.toNat

/-- The check of a program in the rows of a tile, each of which is read once (R168, R203). -/
def State.checkRows (s : State) (p : Nat) (compat : Bool) (base rows : Nat) : State × Option (Nat × Nat) :=
  ((readRows s p base rows).1, checkProgram compat (s.tile p).prog base rows)

/-! ### What a bundle needs in order to issue (R164, R165, R169) -/

/-- Units whose queue an operation takes an entry of (Table 08-1). -/
def opUnits (compat : Bool) (code x : Nat) : List TileUnit :=
  if compat then
    if code = 0x20 ∨ code = 0x21 then (setBits 4 (fld x 16 4)).map TileUnit.arr
    else if 0x40 ≤ code ∧ code ≤ 0x4F then [.vec]
    else if code = 0x61 ∨ code = 0x60 then [.str (fld x 16 3)]
    else []
  else if code = 0x20 ∨ code = 0x21 then (setBits 4 (fld x 16 4)).map TileUnit.arr
  else if code = 0x28 ∨ code = 0x2B then [.arr (fld x 16 2)]
  else if code = 0x29 ∨ code = 0x2A then [.close (fld x 16 2)]
  else if 0x30 ≤ code ∧ code ≤ 0x39 then [.conc]
  else if 0x40 ≤ code ∧ code ≤ 0x53 then [.vec]
  else if code = 0x60 ∨ code = 0x61 then [.str (fld x 16 3)]
  else []

def unitDepth : TileUnit → Nat
  | .arr _ => 8
  | .close _ => 4
  | .conc => 8
  | .vec => 16
  | .str _ => 4

/-- Scalar registers that an operation reads or writes (R169). Log entry 18: DEDUCED. -/
def opRegs (compat : Bool) (code x : Nat) : List Nat :=
  match code with
  | 0x02 => [fld x 16 4]
  | 0x03 => [fld x 16 4, fld x 20 4, fld x 24 4]
  | 0x04 => [fld x 16 4, fld x 20 4]
  | 0x05 => [fld x 19 4, fld x 23 4]
  | 0x07 => [fld x 16 4]
  | 0x08 => [fld x 16 4, fld x 20 4]
  | 0x10 => [fld x 21 4]
  | 0x21 => if compat then [] else (if fld x 216 2 = 2 then [14, 15] else []) ++ (if bit x 206 then [fld x 207 4] else [])
  | 0x29 => if fld x 27 2 = 2 then [14, 15] else []
  | 0x33 => [fld x 32 4]
  | 0x34 => [fld x 48 4]
  | 0x38 => [14, 15]
  | 0x50 => [fld x 33 4, fld x 37 4]
  | 0x51 => [fld x 71 4]
  | 0x52 => [fld x 33 4]
  | _ => []

def WorkList.x (w : WorkList) (i : Nat) : Nat := if i = 0 then 0 else (Sparse.get 0 w.regs i).toNat

/-- Writes a scalar register modulo 2^64; x0 discards writes (R169). -/
def WorkList.setX (w : WorkList) (i v : Nat) : WorkList :=
  if i = 0 then w else { w with regs := Sparse.set 0 w.regs i (BitVec.ofNat 64 v) }

def Tile.list (t : Tile) (l : Nat) : WorkList := Sparse.get WorkList.reset t.lists l
def Tile.setList (t : Tile) (l : Nat) (w : WorkList) : Tile := { t with lists := Sparse.set WorkList.reset t.lists l w }

/-- Entries of a unit's queue in use. -/
def Tile.inUse (t : Tile) (u : TileUnit) : Nat := (t.flights.filter (fun f => f.units.contains u)).length

/-- Scalar registers of a list that an operation in flight interlocks. Log entry 18: DEDUCED. -/
def Tile.locked (t : Tile) (l : Nat) : List Nat := (t.flights.filter (fun f => f.list == l)).flatMap (fun f => f.regs)

/-- The list can issue its next bundle whole (R164, R187). -/
def Tile.canIssue (t : Tile) (la : Launch) (l : Nat) : Bool :=
  let w := t.list l
  w.enabled && !w.ended && w.waiting.isEmpty &&
  (let b := bundleAt la.compat t.prog la.progBase w.pc
   let ops := b.slots.map (fun e => (fld e.1 0 8, e.1))
   let regs := (b.idx :: ops.flatMap (fun o => opRegs la.compat o.1 o.2)).filter (fun r => r != 0)
   let units := ops.flatMap (fun o => opUnits la.compat o.1 o.2)
   !(b.fence && t.flights.any (fun f => f.list == l)) &&
   !(regs.any (fun r => (t.locked l).contains r)) &&
   units.all (fun u => t.inUse u + (units.filter (fun v => v == u)).length ≤ unitDepth u))

/-- The list that issues next: one whose bundle is partly issued, else the current one while it can, else the next in
cyclic order that can (R187). -/
def Tile.pick (t : Tile) (la : Launch) : Option Nat :=
  match (List.range 4).find? (fun l => (t.list l).slot != 0) with
  | some l => some l
  | none => ((List.range 4).map (fun i => (t.current + i) % 4)).find? (fun l => t.canIssue la l)

/-! ### Issue -/

/-- The operation that list `l` of a tile issues next, when it is that list's turn (R187). -/
def Tile.next (t : Tile) (l : Nat) : Option Op :=
  match t.launch with
  | none => none
  | some la =>
    if la.stopping.isSome ∨ t.pick la ≠ some l then none
    else
      let w := t.list l
      let raw := if w.slot = 0 then fetchBundle la.compat t.prog la.progBase w.pc else w.fetched
      let b := parseBundle la.compat raw w.pc
      match b.slots[w.slot]? with
      | none => none
      | some (x, _) =>
        some { code := fld x 0 8, bits := x, bundle := w.pc, slot := w.slot, list := l,
               idx := if w.slot = 0 then w.x b.idx else w.idxVal, raw := raw,
               compat := la.compat }

/-- The list moves past one slot. After the last slot of the bundle it goes to the branch target, or to the next
bundle, or ends. Log entry 15: DESIGN CHOICE. -/
def WorkList.advance (w : WorkList) (b : Bundle) (idx raw : Nat) : WorkList :=
  if w.slot + 1 < b.slots.length then { w with slot := w.slot + 1, idxVal := idx, fetched := raw }
  else
    { w with slot := 0, pc := w.target.getD b.next, target := none, ending := false, idxVal := 0, fetched := 0, bumps := [],
             ended := w.ending }

/-- The list has issued its last bundle and no sync.wait of it holds it: its issue runs past the program, of `last` bundles
(R178, R187, R189). -/
def WorkList.off (w : WorkList) (last : Nat) : Bool := w.slot == 0 && !w.ended && w.waiting.isEmpty && decide (last ≤ w.pc)

/-- List `l` of tile `p`, where its issue runs past its last bundle, ends with a BAD_PARAM entry (R189). The spec gives that entry
no other field: BUNDLE is the index past the program modulo 65,536, and SLOT, OPCODE, DETAIL and the results are 0.
Log entry 15: DESIGN CHOICE. -/
def State.runOff (s : State) (p l : Nat) (la : Launch) : State :=
  let w := (s.tile p).list l
  if w.off (progBundles la.compat la.progRows) then
    (s.updTile p (fun t => t.setList l { w with ended := true })).entry p
      { bundle := w.pc % 65536, slot := 0, list := l, status := stBadParam, detail := 0, opcode := 0, res0 := 0, res1 := 0 }
  else s

/-- Moves the list past the slot it has issued, after the operation's own effect on the list. -/
def State.pastSlot (s : State) (p : Nat) (o : Op) : State :=
  let t := s.tile p
  match t.launch with
  | none => s
  | some la =>
    let w := (t.list o.list).advance (parseBundle la.compat o.raw o.bundle) o.idx o.raw
    (s.setTile p { t.setList o.list w with current := o.list }).runOff p o.list la

/-- What an operation's effect reports, and what it leaves for its completion point: scalar registers to write (R169), the
row that takes the records of an array, and the records (R153), the entries it sends to a stream queue (R234), the rows it moves over the internal path
(R239) and its form (R142). -/
structure Outcome where
  s      : State
  status : Nat := stOk
  detail : Nat := 0
  res0   : Nat := 0
  res1   : Nat := 0
  writes : List (Nat × Nat) := []
  record : Option (Nat × Row) := none
  emits  : Option (Nat × Nat) := none
  rows   : Nat := 0
  wide   : Bool := false
deriving DecidableEq, Repr

def okOut (s : State) : Outcome := { s := s }
def failOut (s : State) (status detail : Nat) : Outcome := { s := s, status := status, detail := detail }

/-- Groups that an operation writes, keyed 32a + g. -/
def opGroups (compat : Bool) (code x : Nat) : List Nat :=
  if compat then []
  else match code with
    | 0x20 => (setBits 4 (fld x 16 4)).map (fun a => 32 * a + fld x 111 5)
    | 0x21 => (setBits 4 (fld x 16 4)).map (fun a => 32 * a + fld x 298 5)
    | 0x28 => [32 * fld x 16 2 + fld x 111 5]
    | 0x2B => [32 * fld x 16 2 + fld x 18 5]
    | 0x53 => if bit x 97 then [32 * fld x 114 2 + fld x 116 5] else []
    | _ => []

/-- Groups that an operation closes (R155). -/
def opCloses (compat : Bool) (code x : Nat) : List Nat :=
  if compat then []
  else if code = 0x29 then [32 * fld x 16 2 + fld x 18 5]
  else if code = 0x21 ∧ bit x 211 then opGroups false code x
  else []

/-- DONE_SIG and the completion entry of a completion (R167). Log entry 16: DEDUCED. -/
def State.complete (s : State) (p : Nat) (f : Flight) : State :=
  let s := match f.doneSig with
    | some e => s.addSignal p e 1
    | none => s
  let s := f.tiles.foldl (fun s t =>
    match f.doneSig, s.phys t with
    | some e, some q => if q = p then s else s.addSignal q e 1
    | _, _ => s) s
  if f.crec ∨ f.status ≠ stOk then
    s.entry p { bundle := f.bundle, slot := f.slot, list := f.list, status := f.status, detail := f.detail,
                opcode := f.opcode, res0 := f.res0, res1 := f.res1 }
  else s

/-- The flight of an operation. Log entry 10: DESIGN CHOICE. -/
def Op.flight (o : Op) (r : Outcome) (units : List TileUnit) (regs tiles : List Nat) (held : Bool) : Flight :=
  { list := o.list, bundle := o.bundle, slot := o.slot, opcode := o.code, doneSig := o.doneSig, crec := o.crec,
    status := r.status, detail := r.detail, res0 := r.res0, res1 := r.res1, units := units, regs := regs,
    tiles := tiles, groups := opGroups o.compat o.code o.bits, closes := opCloses o.compat o.code o.bits,
    writes := r.writes, record := r.record, emits := r.emits, rows := r.rows, wide := r.wide, held := held }

/-- An increment of signal `e` by `n` as a slot of list `l` issues, for a sync.set of the same step (R178). -/
def State.noteBump (s : State) (p l e n : Nat) : State :=
  s.updTile p (fun t =>
    let w := t.list l
    t.setList l { w with bumps := Sparse.modify 0 w.bumps e (fun v => (v + n) % 2 ^ 32) })

/-- An operation whose completion point is Issue, or that is rejected: it completes now (R167). -/
def Outcome.now (r : Outcome) (p : Nat) (o : Op) (tiles : List Nat) : State :=
  let s := match o.doneSig with
    | some e => r.s.noteBump p o.list e 1
    | none => r.s
  (s.complete p (o.flight r [] [] tiles false)).pastSlot p o

/-- An operation that completes later: it stays in flight until then. A rejected one completes now. -/
def Outcome.later (r : Outcome) (p : Nat) (o : Op) (units : List TileUnit) (regs tiles : List Nat) : State :=
  if r.status ≠ stOk then r.now p o tiles
  else
    (r.s.updTile p (fun t => { t with flights := t.flights ++ [o.flight r units (regs.filter (fun x => x != 0)) tiles false] })).pastSlot p o

/-- The rows that hold bundle `i`: two, where a long operation reaches into the next row (R162, R166). -/
def bundleRows (compat : Bool) (base i : Nat) (long : Bool) : List Nat :=
  if compat then [base + i / 32]
  else if long && i % 16 == 15 then [base + i / 16, base + i / 16 + 1]
  else [base + i / 16]

/-- The fetch of the bundle whose first slot issues: its rows are read through the checked path, once (R203).
Log entry 14: DEDUCED. -/
def State.fetch (s : State) (p : Nat) (la : Launch) (o : Op) : State :=
  if o.slot ≠ 0 then s
  else (bundleRows la.compat la.progBase o.bundle (fld o.raw 0 2 == 3)).foldl (fun s r => (readRow s p r).1) s

/-- Runs the meaning `f` of an operation whose code meets `m`, at physical tile p, if list `l` of logical tile `t`
issues such an operation next; otherwise the command's occasion has not come and nothing changes (log entry 1).
Log entry 1: DESIGN CHOICE; log entry 10: DESIGN CHOICE. -/
def State.issue (s : State) (t l : Nat) (compat : Bool) (m : Nat → Bool) (f : Nat → Op → State → State) : State :=
  match s.phys t with
  | none => s
  | some p =>
    let ti := s.tile p
    match ti.launch, ti.next l with
    | some la, some o => if la.compat = compat ∧ m o.code then f p o (s.fetch p la o) else s
    | _, _ => s

/-- The registers of the issuing list. -/
def State.x (s : State) (p l i : Nat) : Nat := ((s.tile p).list l).x i

def State.setX (s : State) (p l i v : Nat) : State :=
  s.updTile p (fun t => t.setList l ((t.list l).setX i v))

def State.updList (s : State) (p l : Nat) (f : WorkList → WorkList) : State :=
  s.updTile p (fun t => t.setList l (f (t.list l)))

/-! ### Ramps (R53, R54) -/

/-- Work arrives at an array: an idle array starts a ramp, a stop ramp reverses. -/
def Ramp.work : Ramp → Ramp
  | .idle => .up 1
  | .up e => .up e
  | .active => .active
  | .down e => .up (e + 1)

/-- A phase ends. -/
def Ramp.phase : Ramp → Ramp
  | .idle => .idle
  | .up e => if e ≥ 8 then .active else .up (e + 1)
  | .active => .active
  | .down e => if e = 0 then .idle else .down (e - 1)

def Tile.ramp (t : Tile) (a : Nat) : Ramp := Sparse.get .idle t.ramps a
def Tile.setRamp (t : Tile) (a : Nat) (r : Ramp) : Tile := { t with ramps := Sparse.set .idle t.ramps a r }

/-- Column bands exercised in a phase of level `e` of an array of width `w`: the lowest ceil(B e / 8) of B = ceil(W / 8);
the others are quiet. -/
def rampBands (w e : Nat) : Nat := cdiv (cdiv w 8 * e) 8

/-- Column bands of an array that are exercised now: all of them while it is active. -/
def State.bandsOn (s : State) (p a : Nat) : Nat :=
  match (s.tile p).ramp a with
  | .idle => 0
  | .up e => rampBands (s.width p a) e
  | .active => cdiv (s.width p a) 8
  | .down e => rampBands (s.width p a) e

/-- Steps of one phase: ARRAY_RAMP_STEPS / 8. -/
def State.phaseSteps (s : State) : Nat := s.live keyRamp / 8

/-- Arrays that take steps for an operation ramp up. An acc.open, acc.adopt or c.drain takes an entry of its array's queue and
streams no activation row: it neither starts nor reverses a ramp, which the spec does not say. Log entry 81: DESIGN
CHOICE. -/
def State.rampUp (s : State) (p : Nat) (arrays : List Nat) : State :=
  s.updTile p (fun t => arrays.foldl (fun t a => t.setRamp a (t.ramp a).work) t)

/-! ### Groups and their records (R143, R153) -/

def groupKey (a g : Nat) : Nat := 32 * a + g
def Tile.group (t : Tile) (a g : Nat) : Group := Sparse.get Group.reset t.groups (groupKey a g)
def Tile.setGroup (t : Tile) (a g : Nat) (x : Group) : Tile :=
  { t with groups := Sparse.set Group.reset t.groups (groupKey a g) x }

/-- Rows a group occupies (R143). -/
def groupRows (grows gcols fmt : Nat) : Nat := cdiv (grows * gcols * accBytes fmt) 512
def Group.rows (g : Group) : Nat := groupRows g.grows g.gcols g.fmt

/-- The record of a group (Table 07-3). -/
def groupRecord (g : Group) : Nat :=
  if !g.isOpen then 0
  else pack [(0, 1, 1), (1, 1, b2n g.mode), (2, 2, g.fmt), (4, 9, g.base), (13, 1, b2n g.bias), (16, 15, g.grows),
    (32, 10, g.gcols), (48, 16, if g.fmt = 2 then wrap 16 g.anchor else 0), (64, 10, g.rows), (96, 32, g.positions)]

/-- The records of the 32 groups of an array as one row. -/
def recordRow (t : Tile) (a : Nat) : Row := row (packElems 128 (tabulate 32 (fun g => groupRecord (t.group a g))))

/-! ### Completion (R167, R53) -/

def TileUnit.isArr : TileUnit → Option Nat
  | .arr a => some a
  | _ => none

/-- Flight `f` waits for the earlier flight `g`: they share a unit (R165), `f` closes a group that `g` writes (R155), `f` opens
one that `g` closes (R150, R165), or `f` records the groups of an array that `g` uses (R153). -/
def Flight.after (f g : Flight) : Bool :=
  g.units.any (fun u => f.units.contains u) || f.closes.any (fun x => g.groups.contains x) ||
  f.groups.any (fun x => g.closes.contains x) ||
  (f.record.isSome && g.units.any (fun u => match u with
    | .arr a => f.units.contains (.close a)
    | _ => false))

/-- A conc.match still holds entries that its queue's buffer has no room for; `later` are the flights behind it (R234). -/
def Tile.emitting (t : Tile) (f : Flight) (later : List Flight) : Bool :=
  match f.emits with
  | none => false
  | some (q, _) =>
    let behind := (later.filterMap (fun g => g.emits)).foldl (fun n e => if e.1 = q then n + e.2 else n) 0
    decide (behind < (Sparse.get Queue.reset t.queues q).held.length)

/-- Flight `k` of a tile can complete: it is not held, it waits for no earlier flight, it has sent its entries, and no
array of it is still in its start ramp. Log entry 10: DESIGN CHOICE; log entry 75: DEDUCED. -/
def Tile.canComplete (t : Tile) (k : Nat) (f : Flight) : Bool :=
  !f.held && (t.flights.take k).all (fun g => !f.after g) && !t.emitting f (t.flights.drop (k + 1)) &&
  f.units.all (fun u =>
    match u with
    | .arr a => (match t.ramp a with
      | .up _ => false
      | _ => true)
    | _ => true)

/-- Arrays whose queue has become empty begin a stop ramp (R53). -/
def Tile.rampDown (t : Tile) (arrays : List Nat) : Tile :=
  arrays.foldl (fun t a => if t.inUse (.arr a) = 0 ∧ t.ramp a = .active then t.setRamp a (.down 7) else t) t

/-- An operation in flight reaches its completion point. Log entry 10: DESIGN CHOICE. -/
def State.finish (s : State) (p k : Nat) : State :=
  let t := s.tile p
  match t.flights[k]? with
  | none => s
  | some f =>
    if t.canComplete k f then
      let s := s.updTile p (fun t => ({ t with flights := dropAt t.flights k }).rampDown (f.units.filterMap TileUnit.isArr))
      let s := f.writes.foldl (fun s e => s.setX p f.list e.1 e.2) s
      let s := match f.record with
        | some (r, x) => writeRow s p r x
        | none => s
      s.complete p f
    else s

end Sys2Proof.Machine
end

