-- ==== Sys2Proof/Machine/Frames.lean ====
section
/-! DEFINITION. What the block drives onto its links: Causeway frames (R313, R316, R318-R323), routing (R326, R327) and
conversations. -/

namespace Sys2Proof.Machine

def State.cport (s : State) (p : Nat) : CwyPort := Sparse.get CwyPort.reset s.ports p
def State.setPort (s : State) (p : Nat) (c : CwyPort) : State := { s with ports := Sparse.set CwyPort.reset s.ports p c }

/-- A lane can carry traffic: trained and not retired. -/
def CwyPort.usable (c : CwyPort) (spare : Bool) : Bool :=
  if spare then c.spareUp && !c.spareGone else c.workUp && !c.workGone

/-- The lane in use carries traffic. -/
def CwyPort.up (c : CwyPort) : Bool := c.usable c.onSpare

/-- STATE of Table 14-2. Log entry 63: DEDUCED. -/
def CwyPort.state (c : CwyPort) : Nat :=
  if c.up then (if c.onSpare then 3 else 2) else if c.usable (!c.onSpare) then 1 else 0

/-- Die that carries a port's traffic (Table 01-3). -/
def CwyPort.die (c : CwyPort) (n : Nat) : Nat := if c.onSpare then n else 24 + n

def State.ethMode (s : State) (p : Nat) : Bool := bit (s.live keyCwyMode) p

/-- 02-42-56-QQ-HH-PP (R313). -/
def macAddr (house p : Nat) (spare : Bool) : BitVec 48 :=
  BitVec.ofNat 48 (0x024256000000 + (house / 64) * 0x10000 + (house % 64) * 0x100 + p + if spare then 8 else 0)

/-- Drives one frame on a lane, with its MAC header in Ethernet mode. -/
def State.driveFrame (s : State) (p : Nat) (spare : Bool) (dst : Nat) (b : Bytes) : State :=
  let mac := if s.ethMode p then
      some { vlan := false, da := macAddr dst p spare, sa := macAddr s.house p spare,
             etherType := BitVec.ofNat 16 (s.live keyEtherType), fcsOk := true : MacHdr }
    else none
  s.send (.frame p spare mac b)

/-- A control frame goes on a lane, which then counts its time to the next HELLO from here (R331). -/
def State.driveLane (s : State) (p : Nat) (spare : Bool) (dst : Nat) (b : Bytes) : State :=
  (s.driveFrame p spare dst b).startTimer (.hello p spare) (if spare then p else 24 + p)

/-- A control frame leaves on the lane in use while the port is up; while it is down nothing leaves (R327). -/
def State.egress (s : State) (p dst : Nat) (b : Bytes) : State :=
  if (s.cport p).up then s.driveLane p (s.cport p).onSpare dst b else s

/-- Live routing entry of a house number: its port (R326). -/
def State.route (s : State) (h : Nat) : Option Nat :=
  let e := Sparse.get 0 s.set.routes h
  if bit e 3 then some (e % 8) else none

/-- The port that a control frame of a conversation of port `p` with house `h` leaves on: the live table's, and none to this
device's own number (R327). Where the table names no port it is the conversation's. Log entry 59: DEDUCED. -/
def State.wayTo (s : State) (p h : Nat) : Option Nat := if h = s.house then none else some ((s.route h).getD p)

/-- The first 128 bits of the device's own digest: bytes 0-15 of the digest. -/
def State.digest128 (s : State) : Nat := s.set.digest.toNat % 2 ^ 128

def ftData : Nat := 0
def ftTally : Nat := 1
def ftCmd : Nat := 2
def ftRpl : Nat := 3
def ftAck : Nat := 4
def ftHello : Nat := 5
def ftLane : Nat := 6

/-- Common header (Table 14-3). -/
def commonHdr (type dst src : Nat) : Nat := pack [(0, 4, type), (4, 4, 1), (8, 14, dst), (22, 14, src)]

/-- A control frame (Table 14-5): header, body and BODY_CRC. -/
def ctlFrame (type dst src seq ack : Nat) (ackValid : Bool) (digest : Nat) (body : Bytes) : Bytes :=
  let h := commonHdr type dst src + pack [(64, 16, seq), (80, 16, ack), (96, 1, b2n ackValid),
    (112, 16, body.length), (128, 128, digest)]
  bytesOfNat 48 (h + put 352 32 (crc32c h 44)) ++
    (if body.length = 0 then [] else body ++ bytesOfNat 4 (crc32cBytes body))

/-! ### Conversations -/

def State.conv (s : State) (p h : Nat) : Option Conv := s.convs.find? (fun c => c.port == p && c.house == h)

def Conv.fresh (p h : Nat) : Conv :=
  { port := p, house := h, txNext := 0, unacked := [], waiting := [], rxNext := 0, rxCount := 0, store := [] }

def State.updConv (s : State) (p h : Nat) (f : Conv → Conv) : State :=
  { s with convs := modifyFirst (fun c => c.port == p && c.house == h) f s.convs }

/-- A frame of a conversation goes or comes: its 10 ms start again (R318). -/
def State.touchConv (s : State) (p h : Nat) : State :=
  if (s.conv p h).isSome then s.startTimer (.idle p h) ((s.cport p).die p) else s

/-- A kept frame goes: its 12 us start (R320). -/
def State.startRetry (s : State) (p h : Nat) (k : Kept) : State := s.startTimer (.retry p h k.seq) ((s.cport p).die p)

/-- Takes a conversation for a new peer; false when all 1,024 are taken (R318). -/
def State.openConv (s : State) (p h : Nat) : State × Bool :=
  match s.conv p h with
  | some _ => (s, true)
  | none =>
    if s.convs.length ≥ 1024 then (s, false)
    else (({ s with convs := s.convs ++ [Conv.fresh p h] }).startTimer (.idle p h) ((s.cport p).die p), true)

/-- Drives a control frame of a conversation, with its cumulative acknowledgement (R320). -/
def State.driveCtl (s : State) (p h type seq : Nat) (body : Bytes) : State :=
  let (ack, v) := match s.conv p h with
    | some c => ((c.rxNext + 65535) % 65536, decide (c.rxCount ≠ 0))
    | none => (0, false)
  match s.wayTo p h with
  | some q => (s.egress q h (ctlFrame type h s.house seq (if v then ack else 0) v s.digest128 body)).touchConv p h
  | none => s

/-- Drives a kept frame, which counts its 12 us from here. -/
def State.driveKept (s : State) (p h : Nat) (k : Kept) : State := (s.driveCtl p h k.type k.seq k.body).startRetry p h k

/-- Queues a sequenced frame: it is kept until acknowledged, and waits while 64 are (R319). False when no conversation
can be taken. -/
def State.sendSeq (s : State) (p h type : Nat) (body : Bytes) (tally : Option Nat) : State × Bool :=
  let (s, ok) := s.openConv p h
  if !ok then (s, false)
  else match s.conv p h with
    | none => (s, false)
    | some c =>
      let k : Kept := { seq := c.txNext, type := type, body := body, resends := 0, tally := tally }
      if c.unacked.length < 64 ∧ c.waiting = [] then
        let s := s.updConv p h (fun c => { c with txNext := (c.txNext + 1) % 65536, unacked := c.unacked ++ [k] })
        (s.driveKept p h k, true)
      else (s.updConv p h (fun c => { c with txNext := (c.txNext + 1) % 65536, waiting := c.waiting ++ [k] }), true)

/-- An ACK frame. -/
def State.sendAck (s : State) (p h : Nat) : State := s.driveCtl p h ftAck 0 []

/-- Waiting frames of a conversation leave as acknowledgements make room. -/
def State.pumpConv (s : State) (p h : Nat) : Nat → State
  | 0 => s
  | n + 1 =>
    match s.conv p h with
    | none => s
    | some c =>
      match c.waiting with
      | k :: rest =>
        if c.unacked.length < 64 then
          let s := s.updConv p h (fun c => { c with unacked := c.unacked ++ [k], waiting := rest })
          (s.driveKept p h k).pumpConv p h n
        else s
      | [] => s

/-! ### Data frames (Table 14-4) -/

structure DataHdr where
  dst     : Nat
  src     : Nat
  tile    : Nat
  window  : Nat
  gen     : Nat
  off     : Nat
  rows    : Nat
  srcTile : Nat
  curator : Bool
  sent    : Nat
  remain  : Nat
deriving DecidableEq, Repr

def dataFrame (h : DataHdr) (rows : List Row) : Bytes :=
  let x := commonHdr ftData h.dst h.src + pack [(64, 10, h.tile), (74, 4, h.window), (78, 8, h.gen), (86, 16, h.off),
    (102, 4, h.rows), (106, 10, h.srcTile), (116, 1, b2n h.curator), (128, 32, h.sent), (160, 16, h.remain)]
  bytesOfNat 32 (x + put 224 32 (crc32c x 28)) ++ rows.flatMap (fun r => bytesOfNat 512 r.toNat)

/-- Hands a data frame to egress; a port that is down drops its rows and counts each (R327). -/
def State.sendData (s : State) (p : Nat) (h : DataHdr) (rows : List Row) : State :=
  if (s.cport p).up then (s.driveFrame p (s.cport p).onSpare h.dst (dataFrame h rows)).touchConv p h.dst
  else s.countEach 0x180C p rows.length

/-- The TALLY body (R316). -/
def tallyBody (tile window gen : Nat) (curator : Bool) (sent : Nat) : Bytes :=
  bytesOfNat 16 (pack [(0, 10, tile), (10, 4, window), (14, 8, gen), (22, 1, b2n curator), (32, 32, sent)])

end Sys2Proof.Machine
end

