-- ==== Sys2Proof/Machine/Replies.lean ====
section
/-! DEFINITION. Replies to commands (R294, R297), the Arcade reply ring (R289), and the journal of commands that
Curator holds (R299, R305). -/

namespace Sys2Proof.Machine

/-! ### Command headers (Table 13-6) -/

def hOpcode (h : BitVec 512) : Nat := fld h.toNat 0 16
def hTag (h : BitVec 512) : Nat := fld h.toNat 16 16
def hOrdered (h : BitVec 512) : Bool := bit h.toNat 32
def hUrgent (h : BitVec 512) : Bool := bit h.toNat 33
def hNoAccept (h : BitVec 512) : Bool := bit h.toNat 34
def hPayloadLen (h : BitVec 512) : Nat := fld h.toNat 40 16
/-- PARAMS field of `w` bits from PARAMS bit `lo`. -/
def hParam (h : BitVec 512) (lo w : Nat) : Nat := fld h.toNat (64 + lo) w

/-- A command header (Table 13-6) with its CRC. -/
def cmdHeader (opcode tag params : Nat) (payload : Bytes) : BitVec 512 :=
  BitVec.ofNat 512 (withCrc64 (pack [(0, 16, opcode), (16, 16, tag), (40, 16, payload.length), (64, 320, params),
    (384, 32, if payload.length = 0 then 0 else crc32cBytes payload)]))

/-! ### Replies (Table 13-7) -/

def replyCrc (x : Nat) : BitVec 256 := BitVec.ofNat 256 (x % 2 ^ 224 + put 224 32 (crc32c x 28))

/-- A reply with PHASE 0. -/
def mkReply (h : BitVec 512) (status detail : Nat) (more : Bool) (r : List Nat) : BitVec 256 :=
  replyCrc (pack [(0, 16, hTag h), (16, 8, status), (24, 16, detail), (41, 1, b2n more), (48, 16, hOpcode h),
    (64, 32, r.getD 0 0), (96, 32, r.getD 1 0), (128, 32, r.getD 2 0), (160, 32, r.getD 3 0)])

/-- Writes one reply into the ring and advances REPLY_PROD (R289). -/
def State.ringWrite (s : State) (r : BitVec 256) : State :=
  let a := s.arc
  let addr := a.replyBase + 32 * a.replyProd
  let x := replyCrc (setFld r.toNat 40 1 (b2n a.phase))
  let pl := addr / 512
  let old := Sparse.get 0 s.mem.comp pl
  let s := { s with mem := { s.mem with
    comp := Sparse.set 0 s.mem.comp pl (row (setFld old.toNat (8 * (addr % 512)) 256 x.toNat)) } }
  let wraps := a.replyProd + 1 ≥ a.replySlots
  let s := { s with arc := { a with replyProd := if wraps then 0 else a.replyProd + 1,
                                    phase := if wraps then !a.phase else a.phase } }
  if a.intEn then s.send (.int a.intVector) else s

def Arcade.full (a : Arcade) : Bool := (a.replyProd + 1) % a.replySlots == a.replyCons

/-- Replies can be written: there is a ring and the link is up. -/
def Arcade.ring (a : Arcade) : Bool := a.replySlots != 0 && a.linkUp

/-- A reply would have to wait for a slot. -/
def Arcade.busy (a : Arcade) : Bool := a.ring && (a.full || a.waiting != [])

/-- A reply on Arcade: written, waiting while the ring is full, or discarded without a ring or a link (R289). -/
def State.arcadeReply (s : State) (k : ReplyKind) (r : BitVec 256) : State :=
  if !s.arc.ring then s.count1 0x1503 0
  else if s.arc.busy then
    ({ s with arc := { s.arc with waiting := s.arc.waiting ++ [(k, r)] } }).count1 0x1502 0
  else s.ringWrite r

/-- A Causeway command is received: its conversation's store takes an entry for it, and holds the last 64 (R297). -/
def State.openStore (s : State) (port : Port) (h seq : Nat) : State :=
  match port with
  | .cwy p => s.updConv p h (fun c =>
      let st := c.store.filter (fun e => e.1 != seq) ++ [(seq, [])]
      { c with store := st.drop (st.length - 64) })
  | _ => s

/-- Keeps a receipt or final reply of a Causeway command whose entry still stands (R297). Log entry 62: DEDUCED. -/
def State.storeReply (s : State) (p h seq : Nat) (r : BitVec 256) : State :=
  s.updConv p h (fun c => { c with store := c.store.map (fun e => if e.1 == seq then (e.1, e.2 ++ [r]) else e) })

def replyBytes (r : BitVec 256) : Bytes := bytesOfNat 32 r.toNat

/-- Sends one reply on the port its command arrived on. -/
def State.sendReply (s : State) (port : Port) (house seq : Nat) (k : ReplyKind) (r : BitVec 256) : State :=
  match port with
  | .arcade => s.arcadeReply k r
  | .cwy p =>
    let s := if k = .grant then s else s.storeReply p house seq r
    (s.sendSeq p house ftRpl (replyBytes r) none).1
  | .i3c => (s.stripSend (.ibi (fld r.toNat 0 16))).stripSend (.reply port 0 r)
  | .jtag => s.stripSend (.reply port 0 r)

def State.cmd (s : State) (n : Nat) : Option Cmd := s.cur.cmds.find? (fun c => c.n == n)

/-- The journal is written in the active tile, and in the standby's mirror while there is a standby (R305). -/
def Curator.edit (k : Curator) (f : List Cmd → List Cmd) : Curator :=
  { k with
    cmds := f k.cmds
    mirror := if k.standby.isSome then f k.mirror else k.mirror }

def State.updCmd (s : State) (n : Nat) (f : Cmd → Cmd) : State :=
  { s with cur := s.cur.edit (modifyFirst (fun c => c.n == n) f) }

/-- The entries of a journal with acceptance number `n`, as they stand once REPLIED. -/
def repliedOf (n : Nat) (l : List Cmd) : List Cmd :=
  (l.filter (fun c => c.n == n)).map (fun c =>
    { c with
      st := .replied
      wait := .none })

/-- The final reply of a command has been sent: its entry is REPLIED, in both tiles (R305). Log entry 51: DEDUCED. -/
def State.dropCmd (s : State) (n : Nat) : State :=
  let k := s.cur
  { s with cur := { k.edit (fun l => l.filter (fun c => c.n != n)) with
    replied := k.replied ++ repliedOf n k.cmds
    mirrorReplied := if k.standby.isSome then k.mirrorReplied ++ repliedOf n k.mirror else k.mirrorReplied } }

/-- A reply with MORE = 1 to a command of the journal. -/
def State.moreReply (s : State) (n status detail : Nat) (r : List Nat) : State :=
  match s.cmd n with
  | none => s
  | some c => s.sendReply c.port c.house c.seq .grant (mkReply c.hdr status detail true r)

/-- The final reply of a command, which its entry holds: sent, so that it is REPLIED, or DONE while it waits for a slot of the
Arcade ring (R305). Log entry 51: DEDUCED. -/
def State.answerFinal (s : State) (c : Cmd) (r : BitVec 256) : State :=
  let t := (s.sendReply c.port c.house c.seq (.final c.n) r).updCmd c.n (fun c =>
    { c with
      st := .done
      wait := .none
      reply := some r })
  if c.port == .arcade && s.arc.busy then t else t.dropCmd c.n

/-- The final reply of a command of the journal. Log entry 11: DESIGN CHOICE; log entry 51: DEDUCED. -/
def State.final (s : State) (n status detail : Nat) (r : List Nat) : State :=
  match s.cmd n with
  | none => s
  | some c => s.answerFinal c (mkReply c.hdr status detail false r)

/-- A reply that waited on Arcade has been sent or discarded: a command whose final reply it was is REPLIED. -/
def State.replySent (s : State) (k : ReplyKind) : State :=
  match k with
  | .final n => s.dropCmd n
  | _ => s

def State.finalOk (s : State) (n : Nat) (r : List Nat) : State := s.final n stOk 0 r

/-- A command begins to wait for something before its final reply. Log entry 11: DESIGN CHOICE. -/
def State.await (s : State) (n : Nat) (w : Wait) : State :=
  s.updCmd n (fun c => { c with st := .started, wait := w })

/-! ### prog.launch (R301) -/

/-- STATUS and RESULT0-3 of the final reply of prog.launch, from the ends of its tiles. Log entry 50: DEDUCED. -/
def launchReply (ends : List (Nat × Nat × Nat × Nat)) : Nat × List Nat :=
  let bad := ends.filter (fun e => e.2.1 != stOk)
  let low := bad.foldl (fun (m : Option (Nat × Nat)) e =>
    match m with
    | none => some (e.1, e.2.1)
    | some (t, st) => if e.1 < t then some (e.1, e.2.1) else some (t, st)) none
  let sum (f : Nat × Nat × Nat × Nat → Nat) := ends.foldl (fun a e => a + f e) 0
  (match low with
   | none => stOk
   | some (_, st) => st,
   [ends.length - bad.length, match low with
      | none => 0xFFFFFFFF
      | some (t, _) => t, sum (fun e => e.2.2.1), sum (fun e => e.2.2.2)])

/-- The final reply of prog.launch, once every tile of it has ended. -/
def State.finishLaunch (s : State) (n : Nat) (ends : List (Nat × Nat × Nat × Nat)) : State :=
  let (st, r) := launchReply ends
  s.final n st 0 r

/-- A tile's launch has ended: the command that started it draws its final reply once every tile has (R301). While no Curator
runs its entry keeps the ends, and the next Curator sends the reply (R306, R307). Log entry 70: DEDUCED. -/
def State.launchDone (s : State) (n t status rejects lost : Nat) : State :=
  match s.cmd n with
  | none => s
  | some c =>
    match c.wait with
    | .launch left ends =>
      let left := left.filter (fun u => u != t)
      let ends := ends ++ [(t, status, rejects, lost)]
      if left = [] ∧ s.cur.ready = true then s.finishLaunch n ends
      else s.updCmd n (fun c => { c with wait := .launch left ends })
    | _ => s

end Sys2Proof.Machine
end

