-- ==== Sys2Proof/Machine/Sequencer.lean ====
section
/-! DEFINITION. The sequencer's own operations (R169-R171, R178, R189), the ramp phases (R53) and the end of a
launch (R189). Every operation here issues only as the sequencer's next (R187). -/

namespace Sys2Proof.Machine



/-! ### Operations carried out at issue, by effect -/

/-- xd <- IMM of 44 bits, sign-extended. -/
def opLi (p : Nat) (o : Op) (s : State) : State := s.setX p o.list (o.f 16 4) (wrap 64 (signed 44 (o.f 20 44)))

/-- xd <- xa + xb + IMM of 32 bits, sign-extended, modulo 2^64. -/
def opAdd (p : Nat) (o : Op) (s : State) : State :=
  s.setX p o.list (o.f 16 4)
    (wrap 64 ((s.x p o.list (o.f 20 4) + s.x p o.list (o.f 24 4) : Nat) + signed 32 (o.f 28 32)))

/-- COND of ctl.br: 0 eq, 1 ne, 2 lt, 3 ge (signed), 4 ltu, 5 geu. -/
def brHolds (cond a b : Nat) : Bool :=
  match cond with
  | 0 => a == b
  | 1 => a != b
  | 2 => decide (signed 64 a < signed 64 b)
  | 3 => decide (signed 64 a ≥ signed 64 b)
  | 4 => decide (a < b)
  | _ => decide (a ≥ b)

/-- Log entry 15: DESIGN CHOICE. -/
def State.branchTo (s : State) (p l target : Nat) : State := s.updList p l (fun w => { w with target := some target })

def opBr (p : Nat) (o : Op) (s : State) : State :=
  if brHolds (o.f 16 3) (s.x p o.list (o.f 19 4)) (s.x p o.list (o.f 23 4)) then s.branchTo p o.list (o.f 27 16) else s

def opJmp (p : Nat) (o : Op) (s : State) : State := s.branchTo p o.list (o.f 16 16)

/-- The items of ctl.info (R171). -/
def infoItem (s : State) (p l item : Nat) : Nat :=
  if item ≤ 3 then s.width p item
  else match item with
    | 4 => (s.ent p).logical
    | 5 => s.house
    | 6 => (match (s.tile p).launch with
      | some la => la.launchId
      | none => 0)
    | 7 => l
    | _ => s.live keySeqTable

def opInfo (p : Nat) (o : Op) (s : State) : State := s.setX p o.list (o.f 16 4) (infoItem s p o.list (o.f 20 8))

def opEnd (p : Nat) (o : Op) (s : State) : State := s.updList p o.list (fun w => { w with ending := true })

/-- sync.wait issues: its list waits until (e(SIG) - (IMM + x(XT))) modulo 2^32 is below 2^31 (R178). Waits of one bundle all
hold the list. -/
def opWait (p : Nat) (o : Op) (s : State) : State :=
  let target := (o.f 25 32 + s.x p o.list (o.f 21 4)) % 2 ^ 32
  let s := s.updList p o.list (fun w => { w with waiting := w.waiting ++ [(o.slot, o.f 16 5, target)] })
  (s.updTile p (fun t => { t with flights := t.flights ++ [o.flight (okOut s) [] [] [] true] })).pastSlot p o

def opSignalAdd (p : Nat) (o : Op) (s : State) : State :=
  (s.noteBump p o.list (o.f 16 5) (o.f 21 32)).addSignal p (o.f 16 5) (o.f 21 32)

/-- The set applies before what the earlier slots of its bundle have added to the signal in the same step (R164, R178). -/
def opSignalSet (p : Nat) (o : Op) (s : State) : State :=
  s.setSignal p (o.f 16 5) (o.f 21 32 + Sparse.get 0 ((s.tile p).list o.list).bumps (o.f 16 5))

/-- ctl.ld: one 64-bit word of the row at a device address that passes R26-R31 as a source. -/
def opLd (p : Nat) (o : Op) (s : State) : Outcome :=
  match decodeAddr (s.x p o.list (o.f 20 4)) with
  | none => failOut s stBadParam 0
  | some pl =>
    if pl.tier = 4 ∨ s.room pl = 0 then failOut s stBadParam 0
    else
      let (s, r) := s.readPlace pl
      { s := s, writes := [(o.f 16 4, elem 64 r.toNat (o.f 24 6))] }

/-- The completion of an operation at Issue with effect `f`. -/
def atIssue (f : Nat → Op → State → State) (p : Nat) (o : Op) (s : State) : State := (okOut (f p o s)).now p o []

/-- The flight of the sync.wait that list `l` issued in slot `slot`. -/
def Flight.waits (f : Flight) (l slot : Nat) : Bool := f.list == l && f.opcode == 0x10 && f.held && f.slot == slot

/-- The end of a held sync.wait of list `l`: its completion with a status (R167, R246). Log entry 75: DEDUCED. -/
def State.endWait (s : State) (p l slot status : Nat) (always : Bool) : State :=
  let t := s.tile p
  let s := s.setTile p { (t.setList l { t.list l with waiting := (t.list l).waiting.filter (fun w => w.1 != slot) }) with
    flights := t.flights.filter (fun g => !g.waits l slot) }
  match t.flights.find? (fun f => f.waits l slot) with
  | none => s
  | some f => s.complete p { f with status := status, crec := f.crec || always }

/-- Every sync.wait that holds list `l` ends with a status, in slot order. -/
def State.endWaits (s : State) (p l status : Nat) : State :=
  ((s.tile p).list l).waiting.foldl (fun s w => s.endWait p l w.1 status true) s

/-! ### Native operations -/

def execNop (t l : Nat) (s : State) : Result := .next (s.issue t l false (fun c => c == 0x00) (atIssue (fun _ _ s => s)))
def execCtlEnd (t l : Nat) (s : State) : Result := .next (s.issue t l false (fun c => c == 0x01) (atIssue opEnd))
def execCtlLi (t l : Nat) (s : State) : Result := .next (s.issue t l false (fun c => c == 0x02) (atIssue opLi))
def execCtlAdd (t l : Nat) (s : State) : Result := .next (s.issue t l false (fun c => c == 0x03) (atIssue opAdd))

/-- ctl.ld interlocks XD until the row is read (R169). -/
def execCtlLd (t l : Nat) (s : State) : Result :=
  .next (s.issue t l false (fun c => c == 0x04) (fun p o s => (opLd p o s).later p o [] [o.f 16 4] []))

def execCtlBr (t l : Nat) (s : State) : Result := .next (s.issue t l false (fun c => c == 0x05) (atIssue opBr))
def execCtlJmp (t l : Nat) (s : State) : Result := .next (s.issue t l false (fun c => c == 0x06) (atIssue opJmp))
def execCtlInfo (t l : Nat) (s : State) : Result := .next (s.issue t l false (fun c => c == 0x07) (atIssue opInfo))
def execSyncWait (t l : Nat) (s : State) : Result := .next (s.issue t l false (fun c => c == 0x10) opWait)
def execSyncAdd (t l : Nat) (s : State) : Result := .next (s.issue t l false (fun c => c == 0x11) (atIssue opSignalAdd))
def execSyncSet (t l : Nat) (s : State) : Result := .next (s.issue t l false (fun c => c == 0x12) (atIssue opSignalSet))

/-- A waiting sync.wait, or c.wait, finds its condition met: it completes, and its list resumes once none of its bundle
waits, or ends where that was the last bundle of its program (R178, R189). Where several are met the one of the lowest slot
ends. -/
def execSyncWaitRelease (t l : Nat) (s : State) : Result :=
  .next (match s.phys t with
    | none => s
    | some p =>
      match ((s.tile p).list l).waiting.find? (fun w => sigReached ((s.tile p).signal w.2.1) w.2.2) with
      | none => s
      | some w =>
        let s := s.endWait p l w.1 stOk false
        match (s.tile p).launch with
        | some la => if la.stopping.isSome then s else s.runOff p l la
        | none => s)

/-! ### Compatibility operations of the sequencer (R192): each acts as the native one -/

def execCNop (t l : Nat) (s : State) : Result := .next (s.issue t l true (fun c => c == 0x00) (atIssue (fun _ _ s => s)))
def execCEnd (t l : Nat) (s : State) : Result := .next (s.issue t l true (fun c => c == 0x01) (atIssue opEnd))
def execCLi (t l : Nat) (s : State) : Result := .next (s.issue t l true (fun c => c == 0x02) (atIssue opLi))
def execCAdd (t l : Nat) (s : State) : Result := .next (s.issue t l true (fun c => c == 0x03) (atIssue opAdd))
def execCBr (t l : Nat) (s : State) : Result := .next (s.issue t l true (fun c => c == 0x05) (atIssue opBr))
def execCJmp (t l : Nat) (s : State) : Result := .next (s.issue t l true (fun c => c == 0x06) (atIssue opJmp))
def execCInfo (t l : Nat) (s : State) : Result := .next (s.issue t l true (fun c => c == 0x07) (atIssue opInfo))
def execCWait (t l : Nat) (s : State) : Result := .next (s.issue t l true (fun c => c == 0x10) opWait)
def execCSadd (t l : Nat) (s : State) : Result := .next (s.issue t l true (fun c => c == 0x11) (atIssue opSignalAdd))

/-! ### Ramps, the end of a launch -/

/-- A ramp phase of array `a` ends: the next level begins, or the ramp finishes (R53). -/
def execRampPhaseEnd (t a : Nat) (s : State) : Result :=
  .next (match s.phys t with
    | none => s
    | some p => s.updTile p (fun x => x.setRamp a (x.ramp a).phase))

/-- The header of the completion record (Table 08-8). Log entry 13: DEDUCED. -/
def headerRow (la : Launch) (endStatus : Nat) : Row :=
  row (withCrc64 (pack [(0, 32, la.launchId), (32, 32, la.entries), (64, 32, la.lost), (96, 32, la.rejects),
    (128, 16, match la.first with
      | some (b, _) => b
      | none => 0xFFFF),
    (144, 8, match la.first with
      | some (_, st) => st
      | none => 0),
    (152, 8, endStatus)]))

/-- The launch of a tile can end: every enabled list has ended, nothing is in flight, and no queue it owns is still
being cancelled (R189, R246). -/
def Tile.launchOver (t : Tile) (la : Launch) : Bool :=
  (List.range 4).all (fun l => !(t.list l).enabled || (t.list l).ended) && t.flights.isEmpty &&
  (la.stopping.isNone || t.queues.all (fun e => e.2.owner.isNone || e.2.cancelling.isNone))

/-- Ownership of groups and queues ends with the launch (R188), and descriptors still to end have no record to write
to (R238). -/
def Tile.release (t : Tile) : Tile :=
  { t with launch := none,
           lists := [],
           current := 0,
           queues := Sparse.mapVals Queue.reset t.queues (fun u =>
             { u with owner := none, rel := u.rel.map (fun _ => none),
                      started := u.started.map (fun st => { st with site := none }) }),
           groups := Sparse.mapVals Group.reset t.groups (fun g => { g with owner := none }) }

def State.endLaunch (s : State) (p : Nat) (la : Launch) : State :=
  let status := la.stopping.getD stOk
  let s := s.updTile p (fun t => (t.store la.compRow (headerRow la status)).release)
  s.launchDone la.cmd (s.ent p).logical status la.rejects la.lost

def execLaunchEnd (t : Nat) (s : State) : Result :=
  .next (match s.phys t with
    | none => s
    | some p =>
      match (s.tile p).launch with
      | none => s
      | some la => if (s.tile p).launchOver la then s.endLaunch p la else s)

end Sys2Proof.Machine
end

