-- ==== Sys2Proof/Machine/Random.lean ====
section
/-! DEFINITION. The random service of a tile: draws through the lane-slot buffers (R259), the draw cursors and the
references of a restore (R264), and the refill of a buffer. -/

namespace Sys2Proof.Machine

def Tile.cursor (t : Tile) (l : Nat) : Cursor := Sparse.get Cursor.reset t.cursors l

/-- Books of one draw of list `l` on the tile's cursors and references (R264): the tile, and whether the draw lies
behind the reference. -/
def Tile.noteDraw (t : Tile) (l counter : Nat) : Tile × Bool :=
  let c := t.cursor l
  let c' : Cursor := { last := if c.valid then max c.last counter else counter, valid := true,
                       draws := min (c.draws + 1) (2 ^ 32 - 1) }
  let t := { t with cursors := Sparse.set Cursor.reset t.cursors l c' }
  let r := Sparse.get Cursor.reset t.refs l
  if r.valid ∧ r.last / 2 ^ 96 = counter / 2 ^ 96 then
    ({ t with refs := Sparse.set Cursor.reset t.refs l Cursor.reset }, counter ≤ r.last)
  else (t, false)

/-- One keystream block for a consumer of a tile, counted for work list `l` when there is one. A buffer whose tag
matches serves it; otherwise the block is computed on demand and counted. The slot's core would next make the block
64 indices on (R259). Log entry 19: DEDUCED. -/
def State.drawBlock (s : State) (p : Nat) (l : Option Nat) (stream index draw : Nat) : State × Nat :=
  let index := index % 2 ^ 64
  let c := drawCounter stream index draw
  let slot := index % 64
  let t := s.tile p
  let hit := Sparse.get 0 t.rngTag slot == c + 1
  let t := { t with rngTag := Sparse.set 0 t.rngTag slot (c + 1),
                    rngNext := Sparse.set 0 t.rngNext slot (drawCounter stream ((index + 64) % 2 ^ 64) draw + 1) }
  let (t, behind) := match l with
    | some l => t.noteDraw l c
    | none => (t, false)
  let s := s.setTile p t
  let s := s.countIf (!hit) 0x1201 p
  (s.countIf behind 0x1202 p, chacha8 s.rng.key c)

/-- Draws for a list of indices, in order. -/
def State.drawAll (s : State) (p : Nat) (l : Option Nat) (stream draw : Nat) : List Nat → State × List Nat
  | [] => (s, [])
  | i :: is =>
    let (s, b) := s.drawBlock p l stream i draw
    let (s, bs) := s.drawAll p l stream draw is
    (s, b :: bs)

/-- The 32-bit words of stochastic rounding for the elements at `indices`; other rounding modes draw nothing (R75,
R256, R261). -/
def State.roundWords (s : State) (p : Nat) (l : Option Nat) (round stream draw : Nat) (indices : List Nat) :
    State × List Nat :=
  if round = 2 then
    let (s, bs) := s.drawAll p l stream draw indices
    (s, bs.map (fun b => b % 2 ^ 32))
  else (s, indices.map (fun _ => 0))

/-- Conversion of a list of values to a format, with a word for each; the counters of R76 at most once (R76). -/
def State.convertAll (s : State) (p fmt round : Nat) (vals : List (Val × Nat)) : State × List Nat :=
  let cs := vals.map (fun e => convert fmt round e.2 e.1)
  let s := s.countIf (cs.any (fun c => c.sat)) 0x0301 p
  (s.countIf (cs.any (fun c => c.nanI)) 0x0302 p, cs.map (fun c => c.bits))

/-- IDX_ORIGIN and PITCH of a close with `cols` columns (R257); none when a non-zero IDX_PITCH is too small. -/
def State.pitch (s : State) (p l round cols : Nat) : Option (Nat × Nat) :=
  if round ≠ 2 then some (0, cols)
  else
    let pitch := s.x p l 15
    if pitch = 0 then some (s.x p l 14, cols)
    else if pitch < cols then none
    else some (s.x p l 14, pitch)

/-- A core refills a lane-slot buffer in a step no demand wants (R259). Log entry 19: DEDUCED. -/
def execRngRefill (t slot : Nat) (s : State) : Result :=
  .next (match s.phys t with
    | none => s
    | some p =>
      let n := Sparse.get 0 (s.tile p).rngNext slot
      if n = 0 then s
      else s.updTile p (fun x => { x with rngTag := Sparse.set 0 x.rngTag slot n, rngNext := Sparse.set 0 x.rngNext slot 0 }))

end Sys2Proof.Machine
end

