-- ==== Sys2Proof/Machine/Groups.lean ====
section
/-! DEFINITION. Accumulation groups: the checks of an open (R145), seeds (R146, R147), ownership (R188), contributions
(R148), and the operations acc.open, acc.close, acc.rec and acc.adopt (R153, R155, R156). -/

namespace Sys2Proof.Machine

/-! ### The group field block (Table 08-6) -/

structure GroupF where
  gid       : Nat
  opens     : Bool
  mode      : Bool
  fmt       : Nat
  base      : Nat
  grows     : Nat
  gcols     : Nat
  src       : Nat
  anchor    : Int
  bias      : Bool
  biasRow   : Option Nat
  rowOff    : Option Nat
  colOff    : Nat
  anchorRow : Option Nat
deriving DecidableEq, Repr

def Op.group (o : Op) (lo : Nat) : GroupF :=
  { gid := o.f lo 5, opens := bit o.bits (lo + 5), mode := bit o.bits (lo + 6), fmt := o.f (lo + 7) 2,
    base := o.f (lo + 9) 9, grows := o.f (lo + 18) 15, gcols := o.f (lo + 33) 10, src := o.f (lo + 43) 2,
    anchor := signed 10 (o.f (lo + 45) 10), bias := bit o.bits (lo + 55), biasRow := o.ix (lo + 56) 16,
    rowOff := o.ix (lo + 72) 15, colOff := o.f (lo + 87) 10, anchorRow := o.ix (lo + 97) 16 }

/-- ROW_OFF or COL_OFF of an operation that adds to an open group lies outside its range (Table 08-6, R169). Those of an
opening operation are checked with the open (R145). -/
def GroupF.offsetsBad (f : GroupF) : Bool :=
  !f.opens && ((match f.rowOff with
    | some r => decide (r > 16383)
    | none => true) || f.colOff % 8 != 0 || decide (f.colOff > 504))

/-- Row number of local row `r` of array `a`. -/
def accRow (a r : Nat) : Nat := 0x8000 + 0x200 * a + r

/-- The groups open on an array. -/
def Tile.openGroups (t : Tile) (a : Nat) : List Group :=
  ((List.range 32).map (fun g => t.group a g)).filter (fun g => g.isOpen)

/-- The rows from `base` meet those of an open group of the array. -/
def Tile.groupOverlap (t : Tile) (a base rows : Nat) : Bool :=
  (t.openGroups a).any (fun g => decide (base < g.base + g.rows) && decide (g.base < base + rows))

/-- The checks of R145, in order: 0 passes, or the number of the failing check. `natural` is the natural anchor of the
operation's pair. An indexed field whose result leaves the field (R169) is a field outside its range. -/
def openCheck (t : Tile) (a : Nat) (f : GroupF) (natural : Option Int) : Nat :=
  let anchorOk : Bool := f.fmt != 2 || (match f.src with
    | 0 => natural.isSome
    | 1 => true
    | 2 => (match f.anchorRow with
      | some r => rowExists r
      | none => false)
    | _ => false)
  let biasOk : Bool := match f.biasRow with
    | some r => decide (r < 0x6000)
    | none => false
  let off : Bool := match f.rowOff with
    | some r => decide (r ≤ 16383)
    | none => false
  if ¬ (f.fmt ≤ 2 ∧ 1 ≤ f.grows ∧ f.grows ≤ 16384 ∧ 8 ≤ f.gcols ∧ f.gcols ≤ 512 ∧ f.gcols % 8 = 0 ∧
      f.colOff ≤ 504 ∧ f.colOff % 8 = 0 ∧ f.anchorRow.isSome ∧ anchorOk ∧ biasOk ∧ off) then 1
  else if f.grows * f.gcols * accBytes f.fmt > 262144 ∨ f.base + groupRows f.grows f.gcols f.fmt > 512 ∨
      (f.bias ∧ f.biasRow.getD 0 + cdiv (f.gcols * accBytes f.fmt) 512 > 0x6000) then 2
  else if (t.group a f.gid).isOpen ∨ t.groupOverlap a f.base (groupRows f.grows f.gcols f.fmt) then 3
  else 0

def checkStatus : Nat → Nat
  | 0 => stOk
  | 1 => stBadParam
  | 2 => stLength
  | _ => stConflict

/-- The rows of an overwrite-first seed (R146): every row of elements repeats the bias of its column. Bytes after the
last element are zero, as in a fresh row (log entry 12). Log entry 12: DEDUCED. -/
def seedRows (f : GroupF) (bias : Nat) : List Row :=
  let w := 8 * accBytes f.fmt
  rowsOfNat (groupRows f.grows f.gcols f.fmt)
    (packElems (w * f.gcols) (List.replicate f.grows (bias % 2 ^ (w * f.gcols))))

/-- Opens a group that has passed R145 (R146). With ACC_MODE = 1 no seed is made and BIAS has no effect on the rows; the record keeps
the BIAS that the open names, which Table 07-3 leaves open. Log entry 81: DESIGN CHOICE. -/
def State.openGroup (s : State) (p a l : Nat) (f : GroupF) (natural : Option Int) : State :=
  let (s, anchor) :=
    if f.fmt ≠ 2 then (s, (0 : Int))
    else match f.src with
      | 0 => (s, natural.getD 0)
      | 1 => (s, f.anchor)
      | _ => let (s, r) := readRow s p (f.anchorRow.getD 0); (s, signed 16 (fld r.toNat 0 16))
  let g : Group :=
    { isOpen := true, mode := f.mode, fmt := f.fmt, base := f.base, bias := f.bias, grows := f.grows, gcols := f.gcols,
      anchor := anchor, positions := 0, owner := some l }
  let s := s.updTile p (fun t => t.setGroup a f.gid g)
  if f.mode then s
  else if f.bias then
    let (s, b) := readRows s p (f.biasRow.getD 0) (cdiv (f.gcols * accBytes f.fmt) 512)
    writeRows s p (accRow a f.base) (seedRows f b)
  else
    s.updTile p (fun t => (span (accRow a f.base) g.rows).foldl (fun t r =>
      { t with fresh := Sparse.set false t.fresh r true }) t)

/-- The group an operation of list `l` adds to (R150, R188): none with a status when it is not open, or belongs to
another list. -/
def State.claimGroup (s : State) (p a l gid : Nat) : State × Nat :=
  let g := (s.tile p).group a gid
  if !g.isOpen then (s.count1 0x0A01 p, stBadParam)
  else match g.owner with
    | none => (s.updTile p (fun t => t.setGroup a gid { g with owner := some l }), stOk)
    | some o => if o = l then (s, stOk) else (s.count1 0x0A01 p, stConflict)

/-- An operation of list `l` names group `gid` of each array, whatever becomes of it: a group that is open and belongs to no
work list belongs to this one from now on (R188). Log entry 82: DEDUCED. -/
def State.nameGroups (s : State) (p l : Nat) (arrays : List Nat) (gid : Nat) : State :=
  arrays.foldl (fun s a =>
    let g := (s.tile p).group a gid
    if g.isOpen ∧ g.owner = none then s.updTile p (fun t => t.setGroup a gid { g with owner := some l }) else s) s

/-- POSITIONS advances by the reduction length and saturates (R151). -/
def State.addPositions (s : State) (p a gid k : Nat) : State :=
  s.updTile p (fun t =>
    let g := t.group a gid
    t.setGroup a gid { g with positions := min (g.positions + k) (2 ^ 32 - 1) })

/-! ### Contributions (R148) -/

/-- The element at bit offset `b` of a row receives a sum. -/
def putSum (fmt : Nat) (x b sum : Nat) : Nat :=
  let w := 8 * accBytes fmt
  setFld x b w (contribute fmt (fld x b w) sum)

/-- Adds a run of sums to one store row: `i0` is the index in the row of the first. An element with no sum is not
touched. -/
def addToRow (fmt : Nat) : Nat → List (Option Nat) → Nat → Nat
  | _, [], x => x
  | i, none :: l, x => addToRow fmt (i + 1) l x
  | i, some v :: l, x => addToRow fmt (i + 1) l (putSum fmt x (8 * accBytes fmt * i) v)

/-- Splits a run of sums that starts at element `i` of row `r` into the runs of its store rows. -/
def splitRun (per : Nat) : Nat → Nat → Nat → List (Option Nat) → List (Nat × Nat × List (Option Nat))
  | 0, _, _, _ => []
  | _ + 1, _, _, [] => []
  | n + 1, r, i, l => (r, i, l.take (per - i)) :: splitRun per n (r + 1) 0 (l.drop (per - i))

/-- One result row, or part of one, joins group `gid`: each store row that its elements occupy is read and written
once (R148). -/
def State.contributeRow (s : State) (p a gid m n : Nat) (sums : List (Option Nat)) : State :=
  let g := (s.tile p).group a gid
  let per := 512 / accBytes g.fmt
  let pos := m * g.gcols + n
  (splitRun per (sums.length + 1) (accRow a (g.base + pos / per)) (pos % per) sums).foldl (fun s e =>
    if e.2.2.all (fun x => x.isNone) then s
    else
      let (s, x) := readRow s p e.1
      writeRow s p e.1 (row (addToRow g.fmt e.2.1 e.2.2 x.toNat))) s

/-- The counters of an array operation in FX64 (R70, R73). -/
def State.countFx (s : State) (p : Nat) (f : FxFlags) : State :=
  ((s.countIf f.inexact 0x0201 p).countIf f.range 0x0202 p).countIf f.special 0x0204 p

/-! ### Close (R155) -/

/-- Elements `i0 .. i0 + n - 1` of a group, read row by row through the checked path. -/
def State.groupBits (s : State) (p a gid : Nat) : State × Nat :=
  let g := (s.tile p).group a gid
  readRows s p (accRow a g.base) g.rows

/-- The values of a group's elements in row-major order, from its bits. -/
def groupVals (g : Group) (x : Nat) : List Val :=
  tabulate (g.grows * g.gcols) (fun i => accVal g.fmt (elem (8 * accBytes g.fmt) x i) g.anchor)

/-- Frees a group: its identifier and rows are free, the rows keep their contents. -/
def State.freeGroup (s : State) (p a gid : Nat) : State := s.updTile p (fun t => t.setGroup a gid Group.reset)

/-- Closes group `gid` of array `a` to OUTFMT and writes the output from `out` (R155). Log entry 75: DEDUCED. -/
def State.closeGroup (s : State) (p a l gid outfmt round stream draw out origin pitch : Nat) : State :=
  let g := (s.tile p).group a gid
  let (s, x) := s.groupBits p a gid
  let n := g.grows * g.gcols
  let (s, bits) :=
    if outfmt = 10 then (s, tabulate n (fun i => elem 64 x i))
    else
      let idx := tabulate n (fun i => origin + i / g.gcols * pitch + i % g.gcols)
      let (s, us) := s.roundWords p (some l) round stream draw idx
      s.convertAll p outfmt round ((groupVals g x).zip us)
  let s := s.freeGroup p a gid
  let s := s.countIf (decide (g.positions > 2 ^ 24)) 0x0203 p
  writeRows s p out (rowsOfNat (cdiv (n * fmtBytes outfmt) 512) (packElems (fmtBits outfmt) bits))

/-! ### Operations -/

def opAccOpen (p : Nat) (o : Op) (s : State) : Outcome :=
  let f := o.group 111
  let a := o.f 16 2
  let s := s.nameGroups p o.list [a] f.gid
  let c := openCheck (s.tile p) a f none
  if c ≠ 0 then failOut (s.count1 0x0A01 p) (checkStatus c) c
  else okOut (s.openGroup p a o.list f none)

def execAccOpen (t l : Nat) (s : State) : Result :=
  .next (s.issue t l false (fun c => c == 0x28) (fun p o s => (opAccOpen p o s).later p o [.arr (o.f 16 2)] [] []))

/-- Rejection of a close or an open with its count (R145, R156). -/
def accReject (s : State) (p status check : Nat) : Outcome := failOut (s.count1 0x0A01 p) status check

/-- acc.close. One that fails both checks of R156, its format and the end of its output, is answered BAD_PARAM, its format first:
the spec gives no order. Log entry 81: DESIGN CHOICE. -/
def opAccClose (p : Nat) (o : Op) (s : State) : Outcome :=
  let a := o.f 16 2
  let gid := o.f 18 5
  let outfmt := o.f 23 4
  let round := if outfmt = 10 then 0 else o.f 27 2
  let (s, st) := s.claimGroup p a o.list gid
  if st ≠ stOk then failOut s st 0
  else
    let g := (s.tile p).group a gid
    match o.ix 29 16, s.pitch p o.list round g.gcols with
    | some out, some (origin, pitch) =>
      if out ≥ 0x6000 ∨ !closeFmtOk g.fmt outfmt then accReject s p stBadParam 0
      else if out + cdiv (g.grows * g.gcols * fmtBytes outfmt) 512 > 0x6000 then accReject s p stLength 0
      else
        let s := s.closeGroup p a o.list gid outfmt round (o.f 45 32) (o.f 77 32) out origin pitch
        { s := s, res0 := if outfmt = 10 then wrap 16 g.anchor else 0 }
    | _, _ => accReject s p stBadParam 0

def execAccClose (t l : Nat) (s : State) : Result :=
  .next (s.issue t l false (fun c => c == 0x29) (fun p o s => (opAccClose p o s).later p o [.close (o.f 16 2)] [] []))

/-- acc.rec names a row. Its records are those that the operations issued to the array before it leave, an acc.close behind it
not counted, which the close unit serves after it (R165); they are written at its completion point, when every such operation has
completed (R153). -/
def opAccRec (p : Nat) (o : Op) (s : State) : Outcome :=
  match o.ix 18 16 with
  | none => failOut s stBadParam 0
  | some r =>
    if !rowExists r then failOut s stBadParam 0 else { s := s, record := some (r, recordRow (s.tile p) (o.f 16 2)) }

def execAccRec (t l : Nat) (s : State) : Result :=
  .next (s.issue t l false (fun c => c == 0x2A) (fun p o s => (opAccRec p o s).later p o [.close (o.f 16 2)] [] []))

/-- The fields of an open from a record and the base that the adopting operation names; none when the record itself
fails (R153). -/
def adoptFields (gid base x : Nat) : Option (GroupF × Int × Nat) :=
  let f : GroupF :=
    { gid := gid, opens := true, mode := true, fmt := fld x 2 2, base := base, grows := fld x 16 15,
      gcols := fld x 32 10, src := 1, anchor := 0, bias := false, biasRow := some 0, rowOff := some 0, colOff := 0,
      anchorRow := some 0 }
  if !bit x 0 ∨ fld x 14 2 ≠ 0 ∨ bit x 31 ∨ fld x 42 6 ≠ 0 ∨ fld x 74 22 ≠ 0 ∨ f.fmt = 3 ∨ f.grows = 0 ∨
      f.grows > 16384 ∨ f.gcols < 8 ∨ f.gcols > 512 then none
  else some (f, signed 16 (fld x 48 16), fld x 96 32)

/-- Opens a group from a record (R153); the status and check of a refusal. -/
def State.adopt (s : State) (p a gid base x : Nat) (owner : Option Nat) : State × Nat :=
  match adoptFields gid base x with
  | none => (s, 1)
  | some (f, anchor, pos) =>
    let c := openCheck (s.tile p) a f none
    if c ≠ 0 then (s, c)
    else
      (s.updTile p (fun t => t.setGroup a gid
        { isOpen := true, mode := true, fmt := f.fmt, base := base, bias := false, grows := f.grows, gcols := f.gcols,
          anchor := if f.fmt = 2 then anchor else 0, positions := pos, owner := owner }), 0)

/-- acc.adopt. A ROW that names no row fails as check 1 does and counts as a rejected open, which the spec does not say.
Log entry 81: DESIGN CHOICE. -/
def opAccAdopt (p : Nat) (o : Op) (s : State) : Outcome :=
  let s := s.nameGroups p o.list [o.f 16 2] (o.f 18 5)
  match o.ix 23 16 with
  | none => accReject s p stBadParam 1
  | some r =>
    if !rowExists r then accReject s p stBadParam 1
    else
      let (s, x) := readRow s p r
      let (s, c) := s.adopt p (o.f 16 2) (o.f 18 5) (o.f 44 9) (elem 128 x.toNat (o.f 39 5)) (some o.list)
      if c ≠ 0 then accReject s p (checkStatus c) c else okOut s

def execAccAdopt (t l : Nat) (s : State) : Result :=
  .next (s.issue t l false (fun c => c == 0x2B) (fun p o s => (opAccAdopt p o s).later p o [.arr (o.f 16 2)] [] []))

end Sys2Proof.Machine
end

