-- ==== Sys2Proof/Machine/Lanes.lean ====
section
/-! DEFINITION. The operand stores of an array: the shadow and active weight registers of its cells (R33, R38), and its
64 lane queues with the MX scale queues, in sparse mode (R119-R123) and in wide-shallow form (R124, R142), and its input
buffer in native dense mode (R40). An operation runs whole at its issue, but for the weight rows of its last wide-shallow pass,
so between two commands the queues and buffers are empty; within it they fill as far ahead as they have room, and every use
reads what they hold (log entry 83). Last, the completion of operations (R167). -/

namespace Sys2Proof.Machine

/-- Bytes of a block (Table 04-1): 8 lines of 32 elements. -/
def blockBytes (fmt : Nat) : Nat := 32 * fmtBits fmt
def lineBytes (fmt : Nat) : Nat := 4 * fmtBits fmt

/-- K covered by one weight tile (Table 02-1). -/
def tileDepth (fmt : Nat) : Nat := if fmt = 2 then 128 else if fmt = 6 ∨ fmt = 7 then 32 else 64

/-- The operand formats whose elements take two cells: BF16 and FP16. -/
def isWideElem (fmt : Nat) : Bool := fmt == 6 || fmt == 7

/-- One row of cells from its bytes by logical column: physical column `good[j]` takes byte j (R55), and a column that
carries none holds 0. -/
def cellRow (good : List Nat) (byte : Nat → Nat) : BitVec 544 :=
  BitVec.ofNat 544 (packElems 8 (tabulate 68 (fun c => match good.idxOf? c with
    | some j => byte j
    | none => 0)))

/-! ### Weight registers (R33, R38) -/

/-- The byte that the cell of row `i` holds for one column, from that column's elements by K index of the weight tile
(Table 02-1): one element, the K pair 2i and 2i + 1 of MXFP4, or one byte of a BF16 or FP16 element. The lower index or
byte is in the low bits or the even row. Log entry 83: DESIGN CHOICE. -/
def cellByte (fmt : Nat) (w : Nat → Nat) (i : Nat) : Nat :=
  if fmt = 2 then w (2 * i) + 16 * w (2 * i + 1)
  else if isWideElem fmt then fld (w (i / 2)) (8 * (i % 2)) 8
  else w i

/-- K-blocks of one weight tile, each with a scale row in an MX format. -/
def scaleRowCount (fmt : Nat) : Nat := if isMx fmt then tileDepth fmt / 32 else 0

/-- A weight tile from its elements and, by K-block of the tile, its scales, each by logical column. What is inert holds
0. -/
def weightTile (good : List Nat) (fmt : Nat) (w scale : Nat → Nat → Nat) : WeightRegs :=
  { scales := tabulate (scaleRowCount fmt) (fun q => cellRow good (fun j => scale j q))
    rows := tabulate 64 (fun i => cellRow good (fun j => cellByte fmt (w j) i)) }

/-- The loader fills the shadow registers, scale rows first and then rows 0 to 63, and the tile swaps into the active ones
(R38); the shadow registers keep what was loaded. Log entry 83: DESIGN CHOICE. -/
def Tile.loadWeights (t : Tile) (a : Nat) (w : WeightRegs) : Tile :=
  let t := { t with shadow := Sparse.set WeightRegs.reset t.shadow a w }
  { t with active := Sparse.set WeightRegs.reset t.active a (Sparse.get WeightRegs.reset t.shadow a) }

/-- One weight tile of an array, from its elements and scales by logical column. -/
def State.loadTile (s : State) (p a fmt : Nat) (w scale : Nat → Nat → Nat) : State :=
  s.updTile p (fun t => t.loadWeights a (weightTile (s.goodColumns p a) fmt w scale))

/-! ### Input buffers (R40) -/

/-- Activation rows that an array's input buffer holds when it is full. -/
def inputDepth : Nat := 4

/-- An activation row on the broadcast in native dense mode, over `depth` indices of K: the elements, and for an MX format the
scale of each 32 of them above byte 63. Log entry 83: DESIGN CHOICE. -/
def inputRow (fmt depth : Nat) (el scale : Nat → Nat) : BitVec 544 :=
  BitVec.ofNat 544 (packElems (fmtBits fmt) (tabulate depth el) +
    (if isMx fmt then packElems 8 (tabulate (depth / 32) scale) <<< 512 else 0))

def Tile.input (t : Tile) (a : Nat) : List (BitVec 544) := Sparse.get [] t.inputs a
def Tile.setInput (t : Tile) (a : Nat) (l : List (BitVec 544)) : Tile := { t with inputs := Sparse.set [] t.inputs a l }

/-- The rows of the broadcast enter the buffer of an array as far ahead as there is room, and its operand front takes the oldest
in each step; `n` bounds the number of steps. Each array takes its rows through its own buffer: how far one runs behind the
others is a matter of timing (R40). -/
def Tile.takeInputs (a : Nat) : Nat → Tile → List (BitVec 544) → Tile
  | 0, t, _ => t
  | n + 1, t, l =>
    let room := inputDepth - (t.input a).length
    Tile.takeInputs a n (t.setInput a ((t.input a ++ l.take room).drop 1)) (l.drop room)

def State.takeInputs (s : State) (p a : Nat) (rows : List (BitVec 544)) : State :=
  s.updTile p (fun t => t.takeInputs a rows.length rows)

/-! ### Lane queues (R119) -/

/-- The 64 queues of an array, lane 0 first. -/
def Tile.laneQueues (t : Tile) (a : Nat) : List (List LaneEntry) :=
  match Sparse.get [] t.lanes a with
  | [] => List.replicate 64 []
  | l => l

/-- Queues that are all empty are not listed. -/
def Tile.setLanes (t : Tile) (a : Nat) (l : List (List LaneEntry)) : Tile :=
  { t with lanes := Sparse.set [] t.lanes a (if l.all (fun q => q.isEmpty) then [] else l) }

/-- Entries that a lane's queue holds when it is full. -/
def laneDepth : Nat := 8

/-- Row band of a lane (R120): BF16 and FP16 use one band of 64 lanes. -/
def laneBand (fmt lane : Nat) : Nat := if isWideElem fmt then 0 else lane / 32

/-- Bits that lane `lane` takes of the element at line `j` and K offset `k` of a block. -/
def laneBits (fmt lane e : Nat) : Nat := if isWideElem fmt then fld e (8 * (lane % 2)) 8 else e

/-- K offset that a lane carries. -/
def laneK (fmt lane : Nat) : Nat := if isWideElem fmt then lane / 2 else lane % 32

/-- Bits of a line's share in DATA (Table 06-1). -/
def laneWidth (fmt : Nat) : Nat := if isWideElem fmt then 8 else fmtBits fmt

/-- The element at line `j`, K offset `k` of a block's bytes. -/
def blockElemBits (fmt data j k : Nat) : Nat := fld data (8 * (j * lineBytes fmt) + fmtBits fmt * k) (fmtBits fmt)

/-- DATA of a lane for a block (Table 06-1): its element of each of the 8 lines. -/
def laneData (fmt data lane : Nat) : BitVec 64 :=
  BitVec.ofNat 64 (packElems (laneWidth fmt) (tabulate 8 (fun j => laneBits fmt lane (blockElemBits fmt data j (laneK fmt lane)))))

/-- One block delivery (R121): its row band and bus, whether it is the last of its M-block in the band, the block's bytes
and its eight line scales. -/
structure Delivery where
  band   : Nat
  bus    : Nat
  last   : Bool
  data   : Nat
  scales : Nat
deriving DecidableEq, Repr

/-- The band has room in every array that takes part (R121). -/
def Tile.bandRoom (t : Tile) (arrays : List Nat) (fmt band : Nat) : Bool :=
  arrays.all (fun a => (t.laneQueues a).zipIdx.all (fun e => laneBand fmt e.2 != band || decide (e.1.length < laneDepth)))

/-- A delivery writes one entry into every lane of its band, in every array of the operation, and for MX formats one scale
entry, in the same handshake (R120, R121). -/
def Tile.deliver (t : Tile) (arrays : List Nat) (fmt : Nat) (d : Delivery) : Tile :=
  arrays.foldl (fun t a =>
    let t := t.setLanes a ((t.laneQueues a).zipIdx.map (fun e =>
      if laneBand fmt e.2 = d.band then e.1 ++ [⟨laneData fmt d.data e.2, d.bus, d.last⟩] else e.1))
    if isMx fmt then
      { t with scaleQs := Sparse.modify [] t.scaleQs (2 * a + d.band) (fun l => l ++ [BitVec.ofNat 64 d.scales]) }
    else t) t

/-- Deliveries in the order of use, as far ahead as there is room; what is left waits (R121). Log entry 83: DESIGN CHOICE. -/
def Tile.fill (t : Tile) (arrays : List Nat) (fmt : Nat) : List Delivery → Tile × List Delivery
  | [] => (t, [])
  | d :: l => if t.bandRoom arrays fmt d.band then Tile.fill (t.deliver arrays fmt d) arrays fmt l else (t, d :: l)

/-- The block on bus `bus` of a row band, read back from the first `n` entries of the band's lanes (R122): bytes and
scales. -/
def Tile.busBlock (t : Tile) (a fmt band bus n : Nat) : Nat × Nat :=
  let qs := t.laneQueues a
  let entry (lane : Nat) : Nat := match ((qs.getD lane []).take n).find? (fun e => e.bus == bus) with
    | some e => e.data.toNat
    | none => 0
  let share (lane j : Nat) : Nat := fld (entry lane) (laneWidth fmt * j) (laneWidth fmt)
  let el (j k : Nat) : Nat :=
    if isWideElem fmt then share (2 * k) j + share (2 * k + 1) j <<< 8 else share (32 * band + k) j
  let at_ := match ((qs.getD (32 * band) []).take n).findIdx? (fun e => e.bus == bus) with
    | some i => (((Sparse.get [] t.scaleQs (2 * a + band)).getD i 0).toNat : Nat)
    | none => 0
  (packElems (fmtBits fmt) ((List.range 8).flatMap (fun j => tabulate 32 (el j))), if isMx fmt then at_ else 0)

/-- The entries of an M-block are released together after its eighth row: the first `n band` of each lane (R122). -/
def Tile.release8 (t : Tile) (arrays : List Nat) (fmt : Nat) (n : Nat → Nat) : Tile :=
  arrays.foldl (fun t a =>
    let t := t.setLanes a ((t.laneQueues a).zipIdx.map (fun e => e.1.drop (n (laneBand fmt e.2))))
    if isMx fmt then
      { t with scaleQs := [0, 1].foldl (fun m b => Sparse.modify [] m (2 * a + b) (fun l => l.drop (n b))) t.scaleQs }
    else t) t

/-! ### Holds (R123) -/

/-- The operand front of an array has met an absent entry: each of `uses` uses may have been such a hold. How many were is a
matter of timing, which the spec leaves open. Log entry 17: DESIGN CHOICE. -/
def State.starve (s : State) (p a uses : Nat) : State :=
  let (s, d) := s.draw
  s.bump 0x0701 (4 * p + a) (Config.choice d % (uses + 1))

/-! ### Wide-shallow form (R47, R124) -/

/-- One 512-byte weight row as an entry in each of the 64 lanes: lane i holds bytes 8i to 8i + 7. -/
def rowEntries (x : Nat) : List LaneEntry := tabulate 64 (fun i => ⟨BitVec.ofNat 64 (fld x (64 * i) 64), 0, false⟩)

/-- The row that the oldest entries of the lanes hold. -/
def headRow (qs : List (List LaneEntry)) : Nat := packElems 64 (qs.map (fun q => match q with
  | e :: _ => e.data.toNat
  | [] => 0))

/-- Weight rows enter a lane queue while it holds fewer than `cap`. -/
def fillRows (cap : Nat) : List (List LaneEntry) → List Nat → List (List LaneEntry) × List Nat
  | qs, [] => (qs, [])
  | qs, x :: l =>
    if (qs.headD []).length < cap then fillRows cap (List.zipWith (fun q e => q ++ [e]) qs (rowEntries x)) l
    else (qs, x :: l)

/-- The rows of a pass go through the lane queues of one array, filled separately, one row to a step: what reaches the
cells, in order. `n` bounds the number of steps. Log entry 83: DESIGN CHOICE. -/
def passRows (cap : Nat) : Nat → List (List LaneEntry) → List Nat → List Nat × List (List LaneEntry)
  | 0, qs, _ => ([], qs)
  | n + 1, qs, l =>
    let r := fillRows cap qs l
    if (r.1.headD []).isEmpty then ([], r.1)
    else
      let t := passRows cap n (r.1.map (fun q => q.drop 1)) r.2
      (headRow r.1 :: t.1, t.2)

/-- Row `k` of the weights of a pass (Table 02-7), from the elements by column and K index. -/
def wideRow (fmt cols : Nat) (w : Nat → Nat → Nat) (k : Nat) : Nat :=
  if fmt = 2 then packElems 8 (tabulate cols (fun j => w j (2 * k) + 16 * w j (2 * k + 1)))
  else packElems (fmtBits fmt) (tabulate cols (fun j => w j k))

/-- The weight rows of `len` K indices from `k0`, an MX scale row before each 32 K (R47). -/
def wideRows (fmt cols : Nat) (w scale : Nat → Nat → Nat) (k0 len : Nat) : List Nat :=
  let per := if fmt = 2 then 2 else 1
  (List.range (cdiv len 32)).flatMap (fun q =>
    let rows := tabulate (cdiv (min 32 (len - 32 * q)) per) (fun i =>
      wideRow fmt cols (fun j k => w j (k0 + 32 * q + k)) i)
    if isMx fmt then packElems 8 (tabulate cols (fun j => scale j (k0 / 32 + q))) :: rows else rows)

/-- Two sides share the queues of an array, a half of four entries of every lane each: `qa` is entries 0-3 and `qb` entries 4-7.
One row a step reaches the cells, from the halves in turn while both hold rows, and from the one that holds a row when the other
does not (R142, R283): the rows, each with its side, and the halves as they are left. `turn` says that it is the second side's
turn; `n` bounds the number of steps. -/
def sharedRows : Nat → List (List LaneEntry) → List (List LaneEntry) → List Nat → List Nat → Bool →
    List (Bool × Nat) × List (List LaneEntry) × List (List LaneEntry)
  | 0, qa, qb, _, _, _ => ([], qa, qb)
  | n + 1, qa, qb, la, lb, turn =>
    let a := fillRows (laneDepth / 2) qa la
    let b := fillRows (laneDepth / 2) qb lb
    let hasA := !(a.1.headD []).isEmpty
    let hasB := !(b.1.headD []).isEmpty
    if !hasA && !hasB then ([], a.1, b.1)
    else if hasB && (turn || !hasA) then
      let t := sharedRows n a.1 (b.1.map (fun q => q.drop 1)) a.2 b.2 false
      ((true, headRow b.1) :: t.1, t.2)
    else
      let t := sharedRows n (a.1.map (fun q => q.drop 1)) b.1 a.2 b.2 true
      ((false, headRow a.1) :: t.1, t.2)

/-- An operation in flight runs the array in wide-shallow form. -/
def Tile.wideOn (t : Tile) (a : Nat) : Bool := t.flights.any (fun f => f.wide && f.units.contains (.arr a))

def Tile.tail (t : Tile) (a : Nat) : List Nat := Sparse.get [] t.tails a
def Tile.setTail (t : Tile) (a : Nat) (l : List Nat) : Tile := { t with tails := Sparse.set [] t.tails a l }

/-- Weight rows pass array `a` with `cap` entries of each lane at their disposal. -/
def Tile.runRows (t : Tile) (a cap : Nat) (rows : List Nat) : Tile :=
  t.setLanes a (passRows cap rows.length (t.laneQueues a) rows).2

/-- Two sides pass array `a` together, with a half of the queues each (R142). -/
def Tile.runShared (t : Tile) (a : Nat) (own beside : List Nat) : Tile :=
  let r := sharedRows (own.length + beside.length) (t.laneQueues a) (List.replicate 64 []) own beside false
  t.setLanes a (List.zipWith (fun x y => x ++ y) r.2.1 r.2.2)

/-- The rows that an earlier pass left over pass the array. -/
def Tile.runTail (t : Tile) (a : Nat) : Tile :=
  if t.tail a = [] then t else (t.runRows a laneDepth (t.tail a)).setTail a []

/-- A wide-shallow pass of an operation, and beside it the rows of the predictor's passes of the same operation (R142); either may
have none. The rows of a pass that nothing shares stay behind until the next pass of the array, a predictor's pass, or the
completion of the operation. Log entry 17: DESIGN CHOICE; log entry 83: DESIGN CHOICE. -/
def State.streamPass (s : State) (p a : Nat) (own beside : List Nat) : State :=
  if own = [] ∧ beside = [] then s
  else
    (s.updTile p (fun t =>
      let t := t.runTail a
      if beside = [] then t.setTail a own
      else if own = [] then t.runRows a laneDepth beside
      else t.runShared a own beside)).starve p a (own.length + beside.length)

/-- A predictor's pass. Where an earlier operation in flight runs the array in wide-shallow form (`shared`) the queues are divided:
what that operation's last pass has left passes beside it, and a side that runs alone has its four entries (R142).
Log entry 17: DESIGN CHOICE. -/
def State.streamPred (s : State) (p a : Nat) (shared : Bool) (rows : List Nat) : State :=
  (s.updTile p (fun t =>
    if !shared then (t.runTail a).runRows a laneDepth rows
    else if t.tail a = [] then t.runRows a (laneDepth / 2) rows
    else (t.runShared a (t.tail a) rows).setTail a [])).starve p a rows.length

/-- What the last passes of operations no longer in flight left has passed the arrays. -/
def State.restRows (s : State) (p : Nat) : State :=
  if (s.tile p).tails = [] then s
  else s.updTile p (fun t => (List.range 4).foldl (fun t a => if t.wideOn a then t else t.runTail a) t)

/-! ### Chunk registers (R48) -/

/-- Chunk register `b` of the cells of token `i` on array `a`, by column. -/
def Tile.chunk (t : Tile) (a b i : Nat) : List (Option Nat) := Sparse.get [] t.chunks (16 * a + 8 * b + i)
def Tile.setChunk (t : Tile) (a b i : Nat) (l : List (Option Nat)) : Tile :=
  { t with chunks := Sparse.set [] t.chunks (16 * a + 8 * b + i) l }

/-- The sums of chunk number `c` of a pass are in the cells of token `i`: the chunks of a pass take the two registers in turn,
from register 0. Log entry 83: DESIGN CHOICE. -/
def State.holdChunk (s : State) (p a c i : Nat) (sums : List (Option Nat)) : State :=
  s.updTile p (fun t => t.setChunk a (c % 2) i sums)

/-- They drain from there into the group (R48), where `keep` says that the column's drain is not suppressed (R141). -/
def State.drainSome (s : State) (p a gid c i m n : Nat) (sums : List (Option Nat)) (keep : Nat → Bool) : State :=
  let s := s.holdChunk p a c i sums
  s.contributeRow p a gid m n
    ((((s.tile p).chunk a (c % 2) i).zipIdx).map (fun e => if keep e.2 then e.1 else none))

/-- All of them drain. -/
def State.drainChunk (s : State) (p a gid c i m n : Nat) (sums : List (Option Nat)) : State :=
  let s := s.holdChunk p a c i sums
  s.contributeRow p a gid m n ((s.tile p).chunk a (c % 2) i)

/-! ### Completion -/

/-- Flight `k` of a tile completes (R167); its arrays may begin a stop ramp (R53), and the weight rows of a last wide-shallow pass
have entered the cells (R124). Log entry 10: DESIGN CHOICE; log entry 83: DESIGN CHOICE. -/
def execOperationComplete (t k : Nat) (s : State) : Result :=
  .next (match s.phys t with
    | none => s
    | some p => (s.finish p k).restRows p)

end Sys2Proof.Machine
end

