-- ==== Sys2Proof/Machine/Arrays.lean ====
section
/-! DEFINITION. Dense products: operands in the packed layout (R78, R82, R173), the association of R37, and arr.mm
(R172). -/

namespace Sys2Proof.Machine

/-- Rows of the values and of the scales of a dense operand of O x K (R173). -/
def denseRows (fmt o k : Nat) : Nat := cdiv (cdiv o 8 * cdiv k 32 * blockBytes fmt) 512
def denseScaleRows (fmt o k : Nat) : Nat := if isMx fmt then cdiv (cdiv o 8 * cdiv k 32) 64 else 0

/-- The element at line `j`, position `e` of the packed block `p`, with its scale. -/
def blockElem (fmt data scales p j e : Nat) : Val :=
  let x := fld data (8 * (p * blockBytes fmt + j * lineBytes fmt) + fmtBits fmt * e) (fmtBits fmt)
  let v := elemVal fmt x
  if isMx fmt then scaleVal (fld scales (8 * (8 * p + j)) 8) v else v

/-- A dense operand as read: values, scales, format and K-blocks. -/
structure Dense where
  fmt    : Nat
  data   : Nat
  scales : Nat
  kb     : Nat
deriving DecidableEq, Repr

/-- Bits of element (o, k) of a dense operand, and the scale of its line for K-block `q`. -/
def Dense.raw (d : Dense) (o k : Nat) : Nat :=
  fld d.data (8 * ((o / 8 * d.kb + k / 32) * blockBytes d.fmt + o % 8 * lineBytes d.fmt) + fmtBits d.fmt * (k % 32)) (fmtBits d.fmt)
def Dense.scale (d : Dense) (o q : Nat) : Nat := fld d.scales (8 * (8 * (o / 8 * d.kb + q) + o % 8)) 8

/-- Element (o, k) of a dense operand. -/
def Dense.elem (d : Dense) (o k : Nat) : Val := blockElem d.fmt d.data d.scales (o / 8 * d.kb + k / 32) (o % 8) (k % 32)

/-- Reads a dense operand of O x K from row `r` of the tile, each row once. -/
def State.readDense (s : State) (p r fmt o k : Nat) : State × Dense :=
  let n := denseRows fmt o k
  let (s, x) := readRows s p r n
  let (s, y) := readRows s p (r + n) (denseScaleRows fmt o k)
  (s, ⟨fmt, x, y, cdiv k 32⟩)

/-- The operand region passes row 0x5FFF. -/
def densePasses (r fmt o k : Nat) : Bool := decide (r + denseRows fmt o k + denseScaleRows fmt o k > 0x6000)

/-- The column sum of output (m, n) over the K of one weight tile, from `k0`, `len` indices (R37). -/
def tileSum (a w : Dense) (fmt : Nat) (anchor : Int) (m n k0 len : Nat) : Nat × FxFlags :=
  columnSum fmt anchor (pairWidth a.fmt w.fmt) ((span k0 len).map (fun k => (a.elem m k, w.elem n k)))

/-- One result row of a weight tile: the sums of columns n0 .. n0 + cols - 1 of activation row m. Of a wide-shallow pass the
row is a token's whole row of up to 512 columns, which drains from its chunk registers (`reg`: the number of the chunk in the
pass, and the token in its group; R48), and each store row it occupies is read and written once; the spec does not say whether
that row or the 64 values of a step is meant. Log entry 81: DESIGN CHOICE. -/
def State.resultRow (s : State) (p arr gid : Nat) (a w : Dense) (rowOff colOff m n0 cols k0 len : Nat)
    (reg : Option (Nat × Nat)) (fl : FxFlags) : State × FxFlags :=
  let g := (s.tile p).group arr gid
  let sums := tabulate cols (fun j => tileSum a w g.fmt g.anchor m (n0 + j) k0 len)
  let row := sums.map (fun e => some e.1)
  (match reg with
   | some (c, i) => s.drainChunk p arr gid c i (rowOff + m) (colOff + n0) row
   | none => s.contributeRow p arr gid (rowOff + m) (colOff + n0) row,
   sums.foldl (fun f e => f.or e.2) fl)

/-- Shape of a dense product on one array. -/
structure Pass where
  wide   : Bool
  m      : Nat
  k      : Nat
  n      : Nat
  /-- Columns of a panel: the width in native form, a wide-shallow pass otherwise (R47, R57). -/
  panel  : Nat
  /-- Rows taken together: all of them in native form, 8 tokens in wide-shallow form. -/
  group  : Nat
  rowOff : Nat
  colOff : Nat
deriving DecidableEq, Repr

/-- Weight rows of a pass over `len` K indices of format `fmt`, the scale rows of an MX format among them (R47). -/
def passLength (fmt len : Nat) : Nat := cdiv len (if fmt = 2 then 2 else 1) + (if isMx fmt then cdiv len 32 else 0)

/-- The weights of a panel reach the cells: as the weight rows of a pass through the lane queues in wide-shallow form
(R47, R124). -/
def State.passWeights (s : State) (p arr : Nat) (w : Dense) (q : Pass) (n0 : Nat) : State :=
  if q.wide then
    s.streamPass p arr
      (wideRows w.fmt (min q.panel (q.n - n0)) (fun j k => w.raw (n0 + j) k) (fun j b => w.scale (n0 + j) b) 0 q.k) []
  else s

/-- A weight tile of a panel is loaded and swapped in, in native form (R38). -/
def State.tileWeights (s : State) (p arr : Nat) (w : Dense) (q : Pass) (n0 k0 : Nat) : State :=
  if q.wide then s
  else
    let cols := min q.panel (q.n - n0)
    s.loadTile p arr w.fmt (fun j k => if j < cols ∧ k0 + k < q.k then w.raw (n0 + j) (k0 + k) else 0)
      (fun j b => if j < cols ∧ k0 / 32 + b < w.kb then w.scale (n0 + j) (k0 / 32 + b) else 0)

/-- The activation rows of a weight tile on the broadcast, in native form (R40); what lies beyond K is 0. -/
def State.tileInputs (s : State) (p arr : Nat) (a w : Dense) (q : Pass) (k0 : Nat) : State :=
  if q.wide then s
  else
    s.takeInputs p arr (tabulate q.m (fun m => inputRow a.fmt (tileDepth w.fmt)
      (fun k => if k0 + k < q.k then a.raw m (k0 + k) else 0)
      (fun b => if k0 / 32 + b < a.kb then a.scale m (k0 / 32 + b) else 0)))

/-- The whole product on one array: token groups, panels, weight tiles in ascending K, result rows in ascending m
(R37, R148, R174). -/
def State.denseProduct (s : State) (p arr gid : Nat) (a w : Dense) (q : Pass) : State × FxFlags :=
  let depth := tileDepth w.fmt
  loop (cdiv q.m q.group) (s, FxFlags.none) (fun acc tg =>
    loop (cdiv q.n q.panel) acc (fun acc pn =>
      loop (cdiv q.k depth) (acc.1.passWeights p arr w q (pn * q.panel), acc.2) (fun acc kt =>
        loop (min q.group (q.m - tg * q.group))
          ((acc.1.tileWeights p arr w q (pn * q.panel) (kt * depth)).tileInputs p arr a w q (kt * depth), acc.2) (fun acc i =>
          acc.1.resultRow p arr gid a w q.rowOff q.colOff (tg * q.group + i) (pn * q.panel)
            (min q.panel (q.n - pn * q.panel)) (kt * depth) (min depth (q.k - kt * depth))
            (if q.wide then some (kt, i) else none) acc.2))))

/-- The form a dense operation runs in: wide-shallow or not (R45, Table 02-6). -/
def wideForm (form m : Nat) : Bool := form == 2 || (form == 0 && decide (m ≤ 8))

/-- Columns of a panel (R47, R57). -/
def panelCols (wide : Bool) (wfmt width : Nat) : Nat :=
  if wide then (if wfmt = 6 ∨ wfmt = 7 then 256 else 512) else width

/-- The group an array operation writes on each of its arrays: opened by it or already open (R145, R150, R188). Every
array is checked before any group opens. The status and the number of the failing check of a refusal. The groups open in
ascending order of array, each reading its ANCHOR_ROW when the rows of the earlier ones hold their seeds; the spec gives no
order. Log entry 81: DESIGN CHOICE. -/
def State.takeGroups (s : State) (p l : Nat) (arrays : List Nat) (f : GroupF) (natural : Option Int) :
    State × Nat × Nat :=
  if f.opens then
    let cs := (arrays.map (fun a => openCheck (s.tile p) a f natural)).filter (fun c => c != 0)
    match cs with
    | c :: _ => (s.count1 0x0A01 p, checkStatus c, c)
    | [] => (arrays.foldl (fun s a => s.openGroup p a l f natural) s, stOk, 0)
  else
    arrays.foldl (fun (acc : State × Nat × Nat) a =>
      if acc.2.1 ≠ stOk then acc
      else
        let (s, st) := acc.1.claimGroup p a l f.gid
        (s, st, 0)) (s, stOk, 0)

/-- GROWS, GCOLS and the format that the operation's group has, or will have when it opens. -/
def groupShape (t : Tile) (a : Nat) (f : GroupF) : Nat × Nat × Nat :=
  if f.opens then (f.grows, f.gcols, f.fmt)
  else
    let g := t.group a f.gid
    (g.grows, g.gcols, g.fmt)

/-- The outputs lie inside the group (R149). -/
def outputsFit (t : Tile) (arrays : List Nat) (f : GroupF) (m n : Nat) : Bool :=
  arrays.all (fun a =>
    let (gr, gc, _) := groupShape t a f
    match f.rowOff with
    | some r => decide (r + m ≤ gr) && decide (f.colOff + n ≤ gc)
    | none => false)

/-- The operand pair and the accumulator of every group form a combination of Table 03-3 (R63). -/
def comboAll (t : Tile) (arrays : List Nat) (f : GroupF) (ca cw : Nat) : Bool :=
  arrays.all (fun a =>
    let (_, _, fmt) := groupShape t a f
    comboOk ca cw fmt)

/-- A group that the operation adds to is open and not another list's, without claiming it yet. -/
def groupsReady (t : Tile) (l : Nat) (arrays : List Nat) (f : GroupF) : Bool :=
  f.opens || arrays.all (fun a =>
    let g := t.group a f.gid
    g.isOpen && (match g.owner with
      | none => true
      | some o => o == l))

def opArrMm (p : Nat) (o : Op) (s : State) : Outcome :=
  let mask := o.f 16 4
  let arrays := setBits 4 mask
  let form := o.f 20 2
  let ca := o.f 22 4
  let cw := o.f 26 4
  let m := o.f 30 15
  let k := o.f 45 24
  let n := o.f 69 10
  let f := o.group 111
  let s := s.nameGroups p o.list arrays f.gid
  let t := s.tile p
  let wr := denseRows cw n k + denseScaleRows cw n k
  match o.ix 79 16, o.ix 95 16 with
  | some act, some wt =>
    if mask = 0 ∨ m > 16383 ∨ n = 0 ∨ n > 512 ∨ f.offsetsBad then failOut s stBadParam 0
    else if !groupsReady t o.list arrays f then
      let (s, st, c) := s.takeGroups p o.list arrays f none
      failOut s st c
    else if f.opens ∧ arrays.any (fun a => openCheck t a f (naturalAnchor ca cw) != 0) then
      let (s, st, c) := s.takeGroups p o.list arrays f (naturalAnchor ca cw)
      failOut s st c
    else if !comboAll t arrays f ca cw then failOut s stBadParam 0
    else if densePasses act ca m k ∨ wt + arrays.length * wr > 0x6000 then failOut s stLength 0
    else if !outputsFit t arrays f m n then failOut s stLength 0
    else
      let (s, _, _) := s.takeGroups p o.list arrays f (naturalAnchor ca cw)
      let s := arrays.foldl (fun s a => s.addPositions p a f.gid k) s
      if m = 0 ∨ k = 0 then okOut s
      else
        let s := s.rampUp p arrays
        let (s, a) := s.readDense p act ca m k
        let wide := wideForm form m
        let (s, fl) := ((List.range arrays.length).zip arrays).foldl (fun acc e =>
          let (s, w) := acc.1.readDense p (wt + e.1 * wr) cw n k
          let q : Pass :=
            { wide := wide, m := m, k := k, n := n, panel := panelCols wide cw (s.width p e.2), group := if wide then 8 else m,
              rowOff := f.rowOff.getD 0, colOff := f.colOff }
          let (s, fl) := s.denseProduct p e.2 f.gid a w q
          (s, acc.2.or fl)) (s, FxFlags.none)
        { s := s.countFx p fl, wide := wide,
          rows := if wide then cdiv m 8 * cdiv n (panelCols true cw 64) * passLength cw k else 0 }
  | _, _ => failOut s stBadParam 0

/-- arr.mm (R172). -/
def execArrMm (t l : Nat) (s : State) : Result :=
  .next (s.issue t l false (fun c => c == 0x20)
    (fun p o s => (opArrMm p o s).later p o ((setBits 4 (o.f 16 4)).map TileUnit.arr) [] []))

end Sys2Proof.Machine
end

