-- ==== Sys2Proof/Machine/Windows.lean ====
section
/-! DEFINITION. Windows and credits: opening and closing (R212-R216), requests, grants and returns (R217-R220), the
arrival of a row (R222, R223) and the settlement of lost rows (R324, R325). The tile of a window is named by its
physical index, because a Curator tile owns windows too (R32). -/

namespace Sys2Proof.Machine

/-! ### Sources and entries -/

/-- Source word of a tile (Table 09-3). -/
def srcWord (tile house : Nat) : Nat := tile + house * 2 ^ 10
def srcCompanion : Nat := 2 ^ 31
def srcTile (w : Nat) : Nat := fld w 0 10
def srcHouse (w : Nat) : Nat := fld w 10 14

/-- A source word keeps Table 09-3. -/
def srcWordOk (w : Nat) : Bool := fld w 24 7 == 0 && (!bit w 31 || fld w 0 24 == 0)

def Tile.window (t : Tile) (n : Nat) : Window := Sparse.get Window.reset t.windows n
def Tile.setWindow (t : Tile) (n : Nat) (w : Window) : Tile := { t with windows := Sparse.set Window.reset t.windows n w }
def State.win (s : State) (p n : Nat) : Window := (s.tile p).window n
def State.setWin (s : State) (p n : Nat) (w : Window) : State := s.updTile p (fun t => t.setWindow n w)

/-- The physical tile that owns a window named by tile number and CURATOR flag (R32). Log entry 41: DEDUCED. -/
def State.owner (s : State) (tile : Nat) (curator : Bool) : Option Nat := if curator then s.cur.active else s.phys tile

/-- The window entry as it reads (Table 09-2). -/
def Window.bits (w : Window) : Nat :=
  pack [(0, 16, w.baseRow), (16, 16, w.rows), (32, 16, w.credits), (48, 5, w.arriveSig), (53, 1, b2n w.arriveEn),
    (54, 2, w.srcMode), (56, 3, w.srcCount), (64, 32, w.srcs.getD 0 0), (96, 32, w.srcs.getD 1 0),
    (128, 32, w.srcs.getD 2 0), (160, 32, w.srcs.getD 3 0), (192, 1, b2n w.isOpen), (200, 8, w.gen), (208, 16, w.pool)]

/-- The window that a supplied entry opens, at generation `gen`. -/
def windowOf (x gen : Nat) : Window :=
  { baseRow := fld x 0 16, rows := fld x 16 16, credits := fld x 32 16, arriveSig := fld x 48 5, arriveEn := bit x 53,
    srcMode := fld x 54 2, srcCount := fld x 56 3, srcs := tabulate 4 (fun i => fld x (64 + 32 * i) 32), isOpen := true,
    gen := gen, pool := fld x 32 16, consumed := 0, ledger := [], nextOrder := 0, due := 0 }

/-- The source may write the window (Table 09-2, R213). -/
def Window.permits (w : Window) (house src : Nat) : Bool :=
  match w.srcMode with
  | 0 => (w.srcs.take w.srcCount).contains src
  | 1 => !bit src 31 && srcHouse src == house
  | 2 => !bit src 31 && srcHouse src / 64 == house / 64
  | _ => true

/-! ### Open and close (R214-R216) -/

/-- Check 1 of R214 on the supplied entry. -/
def entryOk (x : Nat) : Bool :=
  let count := fld x 56 3
  fld x 59 5 == 0 && fld x 192 64 == 0 && decide (fld x 0 16 ≤ 0x5FFF) && decide (1 ≤ fld x 16 16) &&
  decide (fld x 16 16 ≤ 24576) && decide (fld x 32 16 ≤ fld x 16 16) &&
  (if fld x 54 2 = 0 then decide (1 ≤ count) && decide (count ≤ 4) else count == 0) &&
  (List.range 4).all (fun i =>
    let w := fld x (64 + 32 * i) 32
    if i < count then srcWordOk w else w == 0)

/-- Check 3 of R214: another open window of the tile shares a row. -/
def Tile.windowOverlap (t : Tile) (base rows : Nat) : Bool :=
  t.windows.any (fun e => e.2.isOpen && extentsMeet base rows 1 e.2.baseRow e.2.rows 1)

def openStatus (t : Tile) (n x : Nat) : Nat :=
  if n > 15 ∨ !entryOk x then stBadParam
  else if fld x 0 16 + fld x 16 16 > 0x6000 then stLength
  else if (t.window n).isOpen ∨ t.windowOverlap (fld x 0 16) (fld x 16 16) then stConflict
  else stOk

/-- Opens window `n` with the supplied entry: the state and the status of R214. -/
def State.openWindow (s : State) (p n x : Nat) : State × Nat :=
  let t := s.tile p
  let st := openStatus t n x
  if st ≠ stOk then (s, st) else (s.setWin p n (windowOf x (((t.window n).gen + 1) % 256)), stOk)

/-- A grant as its message carries it (Table 09-4). -/
structure Grant where
  status  : Nat
  gen     : Nat
  rows    : Nat
  granted : Nat
  pending : Nat
deriving DecidableEq, Repr

/-- Sends a grant of a window of physical tile `p` back the way its request came (R218, R302). Log entry 37: DEDUCED. -/
def State.sendGrant (s : State) (p win : Nat) (path : GrantPath) (g : Grant) : State :=
  match path with
  | .none => s
  | .mesh tile =>
    let curator := (s.logical p).isNone
    s.post (.grant tile ((s.logical p).getD 0) win curator g.status g.gen g.rows g.granted g.pending)
  | .cmd n =>
    let r := [g.granted + g.pending * 65536, g.gen + g.rows * 256]
    if g.pending > 0 then (s.moreReply n g.status 0 r).await n .credit else s.final n g.status 0 r

/-- The pending request that arrived first. -/
def firstPending (l : List Ledger) : Option Ledger :=
  (l.filter (fun e => e.want != 0)).foldl (fun (m : Option Ledger) e =>
    match m with
    | none => some e
    | some f => if e.order < f.order then some e else some f) none

/-- Answers every pending request of a closing window, in the order of arrival, with a grant of 0 and CANCELLED. -/
def State.cancelPending (s : State) (p win : Nat) (w : Window) : Nat → List Ledger → State
  | 0, _ => s
  | n + 1, l =>
    match firstPending l with
    | none => s
    | some e =>
      State.cancelPending (s.sendGrant p win e.path ⟨stCancelled, w.gen, w.rows, 0, 0⟩) p win w n
        (l.filter (fun f => f.src != e.src))

/-- Closes window `n`: the entry is cleared but for its generation (R212, R215, R216). Log entry 37: DEDUCED. -/
def State.closeWindow (s : State) (p n : Nat) : State :=
  let w := s.win p n
  if w.isOpen then
    let s := s.setWin p n { Window.reset with gen := w.gen }
    s.cancelPending p n w w.ledger.length w.ledger
  else s

/-- Answers every win.credit that waits at a tile that is lost, with its final reply CANCELLED (R294).
Log entry 85: DEDUCED. -/
def State.cancelCredits (s : State) (p : Nat) : State :=
  (List.range 16).foldl (fun s n =>
    let w := s.win p n
    s.cancelPending p n w w.ledger.length (w.ledger.filter (fun e => match e.path with
      | .cmd _ => true
      | _ => false))) s

/-- Closes every open window of a tile. -/
def State.closeWindows (s : State) (p : Nat) : State := (List.range 16).foldl (fun s n => s.closeWindow p n) s

/-! ### Credits (R217-R220) -/

/-- An entry with nothing held or wanted is freed; one of another device only when its last TALLY is level (R325).
Log entry 39: DEDUCED. -/
def Ledger.idle (e : Ledger) : Bool := e.held == 0 && e.want == 0 && (!e.remote || e.received == e.tally)

def Window.entryOf (w : Window) (src : Nat) : Option Ledger := w.ledger.find? (fun e => e.src == src)

/-- Rewrites the entry of a source, and frees it if nothing is left in it. -/
def Window.updEntry (w : Window) (src : Nat) (f : Ledger → Ledger) : Window :=
  { w with ledger := (modifyFirst (fun e => e.src == src) f w.ledger).filter (fun e => !(e.src == src && e.idle)) }

/-- The owner answers a credit request (R219). `sent` levels RECEIVED of an entry taken for another device (R324).
Log entry 39: DEDUCED; log entry 41: DEDUCED. -/
def State.askCredits (s : State) (p win src count : Nat) (wait : Bool) (path : GrantPath) (sent : Nat) (remote : Bool) :
    State :=
  let w := s.win p win
  if win > 15 ∨ !w.isOpen ∨ !w.permits s.house src then s.sendGrant p win path ⟨stBadParam, w.gen, w.rows, 0, 0⟩
  else if (w.entryOf src).isNone ∧ w.ledger.length ≥ 8 then
    (s.count1 0x0E01 p).sendGrant p win path ⟨stNoResource, w.gen, w.rows, 0, 0⟩
  else
    let old := w.entryOf src
    let given := min count w.pool
    let want := if wait then count - given else 0
    let w1 := if old.isSome then w else
      { w with ledger := w.ledger ++ [{ src := src, held := 0, want := 0, order := 0, path := .none, received := sent,
                                        tally := sent, remote := remote }] }
    let w2 := w1.updEntry src (fun e =>
      { e with held := e.held + given, want := want, order := w.nextOrder, path := if want = 0 then .none else path })
    let s := s.setWin p win { w2 with pool := w.pool - given, nextOrder := w.nextOrder + 1 }
    let s := match old with
      | some e => if e.want ≠ 0 then s.sendGrant p win e.path ⟨stCancelled, w.gen, w.rows, 0, 0⟩ else s
      | none => s
    s.sendGrant p win path ⟨stOk, w.gen, w.rows, given, want⟩

/-- Serves pending requests from `m` returned credits, in the order of arrival; what is left goes to the pool. -/
def State.servePending (s : State) (p win : Nat) : Nat → Nat → State
  | 0, m => s.setWin p win { s.win p win with pool := (s.win p win).pool + m }
  | n + 1, m =>
    let w := s.win p win
    match firstPending w.ledger with
    | none => s.setWin p win { w with pool := w.pool + m }
    | some e =>
      if m = 0 then s
      else
        let k := min m e.want
        let w' := w.updEntry e.src (fun e => { e with held := e.held + k, want := e.want - k,
                                                      path := if e.want = k then .none else e.path })
        let s := (s.setWin p win w').sendGrant p win e.path ⟨stOk, w.gen, w.rows, k, e.want - k⟩
        State.servePending s p win n (m - k)

/-- Return of `n` credits to a window (R220). -/
def State.returnCredits (s : State) (p win n : Nat) : State :=
  let w := s.win p win
  if !w.isOpen then s.countIf (decide (0 < n)) 0x0E02 p
  else
    let m := min n w.consumed
    let s := s.countIf (decide (w.consumed < n)) 0x0E02 p
    let s := s.setWin p win { w with consumed := w.consumed - m }
    s.servePending p win 8 m

/-! ### Arrival of a row (Table 09-5) -/

/-- A row and what it names: a window and an offset, or a row of the tile. -/
structure Arrival where
  win   : Option Nat
  byRow : Bool
  src   : Nat
  gen   : Nat
  off   : Nat
  data  : Row
deriving DecidableEq, Repr

/-- ARRIVE_SIG of a window increments by `n`, if it is enabled. -/
def State.arriveSignal (s : State) (p : Nat) (w : Window) (n : Nat) : State :=
  if w.arriveEn then s.addSignal p w.arriveSig n else s

/-- A row reaches the window unit of a tile and is checked in the order of Table 09-5; true when it is accepted. -/
def State.arriveRow (s : State) (p : Nat) (a : Arrival) : State × Bool :=
  match a.win with
  | none => (s.count1 0x0E03 p, false)
  | some n =>
    let w := s.win p n
    let held := match w.entryOf a.src with
      | some e => e.held
      | none => 0
    if !w.isOpen then (s.count1 0x0E04 p, false)
    else if a.gen ≠ w.gen then (s.count1 0x0E05 p, false)
    else if !w.permits s.house a.src then (s.count1 0x0E06 p, false)
    else if held = 0 then (s.count1 0x0E07 p, false)
    else
      let w' := w.updEntry a.src (fun e => { e with held := e.held - 1 })
      let pooled := s.setWin p n { w' with pool := w.pool + 1 }
      let r := if a.byRow then a.off else w.baseRow + a.off
      if r < w.baseRow ∨ r ≥ w.baseRow + w.rows then (pooled.count1 0x0E08 p, false)
      else if (s.tile p).progRow r then (pooled.count1 0x0B01 p, false)
      else
        let s := s.setWin p n { w' with consumed := w.consumed + 1 }
        ((setRow s p r a.data).arriveSignal p w 1, true)

/-- A row with REMAIN `remain` reaches window `n` of a tile: the tile's die sets the deadline of its write (R20, R269,
Table 12-3). -/
def State.setDue (s : State) (p n remain : Nat) : State :=
  s.setWin p n { (s.win p n) with due := ((s.clock (dieOf p)).count + remain) % 2 ^ 48 }

/-- Settlement of `d` lost rows of a source on another device, at arrival port `port` (R324). -/
def State.settleLost (s : State) (p n src d port : Nat) : State :=
  let w := s.win p n
  match w.entryOf src with
  | none => s
  | some e =>
    let k := min d e.held
    let w' := { w with consumed := w.consumed + k }.updEntry src (fun e =>
      { e with held := e.held - k, received := (e.received + d) % 2 ^ 32 })
    let s := (s.setWin p n w').arriveSignal p w k
    let s := s.countEach 0x180B port k
    s.countIf (decide (e.held < d)) 0x0E02 p

/-- The shortfall of a frame or TALLY against RECEIVED, when it settles anything (R324). -/
def shortfall (sent rows received : Nat) : Nat :=
  let d := (sent + 2 ^ 33 - rows - received) % 2 ^ 32
  if d < 2 ^ 31 then d else 0

/-! ### Commands of the mesh -/

/-- Credit request `k` of the mesh reaches its owner (R219). A request to Curator names no tile, so none that is vacant.
Log entry 78: DEDUCED. -/
def execCreditRequest (k : Nat) (s : State) : Result :=
  .next (match s.take k with
    | some (.request dst win count wait curator src, s) =>
      (match s.owner dst curator with
      | some p => s.askCredits p win (srcWord src s.house) count wait (.mesh src) 0 false
      | none => (s.countIf (!curator) 0x0E09 0).post (.grant src dst win curator stNoResource 0 0 0 0))
    | _ => s)

/-- Row `k` of the mesh reaches its owner: the first of those that one queue has on the way to one window (R223).
Log entry 78: DEDUCED. -/
def execWindowRowArrival (k : Nat) (s : State) : Result :=
  .next (match s.take k with
    | some (.row src q dst curator win byRow gen off remain data, s') =>
      if (s.mesh.take k).any (fun m =>
          match m with
          | .row src' q' dst' c' win' _ _ _ _ _ => src' == src && q' == q && dst' == dst && c' == curator && win' == win
          | _ => false) then s
      else (match s'.owner dst curator with
        | some p =>
          ((match win with
          | some n => s'.setDue p n remain
          | none => s').arriveRow p ⟨win, byRow, srcWord src s.house, gen, off, data⟩).1
        | none => s'.countIf (!curator) 0x0E09 0)
    | _ => s)

/-- A WWR message of the companion delivers one row under the checks of Table 09-5. -/
def execArcadeWwr (t w gen off : Nat) (data : Row) (s : State) : Result :=
  .next (if !s.arc.linkUp then s
    else match s.phys t with
    | some p => (s.arriveRow p ⟨some w, false, srcCompanion, gen, off, data⟩).1
    | none => s.count1 0x0E09 0)

end Sys2Proof.Machine
end

