-- ==== Sys2Proof/Machine/Tiers.lean ====
section
/-! DEFINITION. Reads of the outer tiers with what they report about themselves
(Table 10-6), Peer commands of this device, and the credit accounts of a tile (R241, R322, R323, R325). -/

namespace Sys2Proof.Machine

/-- One row read from a place, with what this read reports: an HBM codeword that the stack corrects or cannot correct, or
CXL poison (Table 10-6, R354). The contents as read are what a relocation copies (R355). -/
def State.readTier (s : State) (pl : Place) (e : ReadErr) : State × Row :=
  let (s, x) := s.readPlace pl
  match pl, e with
  | .hbm r, .corrected => (s.hbmCorrected r, x)
  | .hbm r, .uncorrectable =>
    let (s, y) := s.spoil x
    ((s.writeHbm r y).hbmBad r, y)
  | .cxl c r, .poison =>
    let (s, y) := s.spoil x
    ((s.writeCxl c r y).count1 0x1101 c, y)
  | _, _ => (s, x)

/-! ### Peer commands -/

/-- Sends a Peer command to another house over its route (R319, R327). The status is BAD_PARAM without a route and NO_RESOURCE
without a conversation (R318). -/
def State.sendPeer (s : State) (house opcode params : Nat) (purpose : Purpose) : State × Nat :=
  match if house = s.house then none else s.route house with
  | none => (s, stBadParam)
  | some port =>
    let tag := s.cur.nextTag
    let h := cmdHeader opcode tag params []
    let (s, ok) := s.sendSeq port house ftCmd (bytesOfNat 64 h.toNat) none
    if ok then
      ({ s with cur := { s.cur with
          nextTag := (tag + 1) % 65536,
          sent := s.cur.sent ++ [{ tag := tag, port := port, house := house, opcode := opcode, purpose := purpose }] } },
       stOk)
    else (s, stNoResource)

/-- PARAMS of win.credit (Table 13-8). -/
def creditParams (tile win count : Nat) (wait : Bool) (src : Nat) (curator : Bool) (sent : Nat) : Nat :=
  pack [(0, 10, tile), (10, 4, win), (14, 16, count), (30, 1, b2n wait), (31, 10, src), (42, 1, b2n curator),
    (43, 32, sent)]

/-! ### Credit accounts (R241) -/

/-- The window that an account is for. -/
structure AcctKey where
  house   : Nat
  tile    : Nat
  curator : Bool
  window  : Nat
deriving DecidableEq, Repr

def Account.is (a : Account) (k : AcctKey) : Bool :=
  a.house == k.house && a.tile == k.tile && a.curator == k.curator && a.window == k.window

/-- Log entry 38: DESIGN CHOICE. -/
def Account.fresh (k : AcctKey) : Account :=
  { house := k.house, tile := k.tile, curator := k.curator, window := k.window, gen := 0, rows := 0, sent := 0, held := 0,
    pending := 0, known := false, tallyOut := false }

def Tile.acct (t : Tile) (k : AcctKey) : Option Account := t.accounts.find? (fun a => a.is k)

def State.updAcct (s : State) (p : Nat) (k : AcctKey) (f : Account → Account) : State :=
  s.updTile p (fun t => { t with accounts := modifyFirst (fun a => a.is k) f t.accounts })

/-- The account for a window, taken now if there is none; false when all 16 are taken. -/
def State.takeAcct (s : State) (p : Nat) (k : AcctKey) : State × Bool :=
  let t := s.tile p
  if (t.acct k).isSome then (s, true)
  else if t.accounts.length ≥ 16 then (s, false)
  else (s.setTile p { t with accounts := t.accounts ++ [Account.fresh k] }, true)

/-- A credit request of physical tile `p` for an account: over the mesh within the device, as a Peer command otherwise
(R218, R302). The status says whether it could be sent. Log entry 44: DEDUCED. -/
def State.sendRequest (s : State) (p : Nat) (k : AcctKey) (count : Nat) (wait : Bool) : State × Nat :=
  let src := (s.logical p).getD 0
  if k.house = s.house then (s.post (.request k.tile k.window count wait k.curator src), stOk)
  else
    let sent := match (s.tile p).acct k with
      | some a => a.sent
      | none => 0
    s.sendPeer k.house 0x0404 (creditParams k.tile k.window count wait src k.curator sent)
      (.credit p k.house k.tile k.window k.curator)

/-- A TALLY of an account on another device (R323). -/
def State.sendTally (s : State) (p : Nat) (k : AcctKey) : State :=
  match (s.tile p).acct k, s.route k.house with
  | some a, some port =>
    let (s, ok) := s.sendSeq port k.house ftTally (tallyBody k.tile k.window a.gen k.curator a.sent) (some p)
    if ok then s.updAcct p k (fun a => { a with tallyOut := true }) else s
  | _, _ => s

end Sys2Proof.Machine
end

