-- ==== Sys2Proof/Machine/Streams.lean ====
section
/-! DEFINITION. Stream queues (Tables 10-1, 10-2), the stream descriptor (Tables 10-3, 10-4), its checks (Table 10-5),
paged references (R194-R198) and the release of ring slots (R226, R243). -/

namespace Sys2Proof.Machine

def Tile.queue (t : Tile) (q : Nat) : Queue := Sparse.get Queue.reset t.queues q
def Tile.setQueue (t : Tile) (q : Nat) (x : Queue) : Tile := { t with queues := Sparse.set Queue.reset t.queues q x }
def State.queue (s : State) (p q : Nat) : Queue := (s.tile p).queue q
def State.updQueue (s : State) (p q : Nat) (f : Queue → Queue) : State := s.updTile p (fun t => t.setQueue q (f (t.queue q)))

/-! ### The descriptor (Table 10-3) -/

def dSrc (d : Nat) : Nat := fld d 0 64
def dDst (d : Nat) : Nat := fld d 64 64
def dRows (d : Nat) : Nat := fld d 128 24
def dSrcStride (d : Nat) : Nat := fld d 152 32
def dDstStride (d : Nat) : Nat := fld d 184 32
def dAux (d : Nat) : Nat := fld d 216 64
def dKind (d : Nat) : Nat := fld d 280 4
def dWindow (d : Nat) : Nat := fld d 284 4
def dWinEn (d : Nat) : Bool := bit d 288
/-- CLASS of the reads: true for class P. -/
def dClass (d : Nat) : Bool := bit d 289
def dPaged (d : Nat) : Bool := bit d 290
def dOrder (d : Nat) : Bool := bit d 291
def dDoneEn (d : Nat) : Bool := bit d 292
def dDoneSig (d : Nat) : Nat := fld d 293 5
def dCrec (d : Nat) : Bool := bit d 298
def dCvtEn (d : Nat) : Bool := bit d 299
def dCvtIn (d : Nat) : Nat := fld d 300 4
def dCvtOut (d : Nat) : Nat := fld d 304 4
def dCvtRound (d : Nat) : Nat := fld d 308 2
def dCvtAnchor (d : Nat) : Int := signed 16 (fld d 312 16)
def dBudget (d : Nat) : Nat := fld d 328 16
def dRngStream (d : Nat) : Nat := fld d 344 32
def dRngDraw (d : Nat) : Nat := fld d 376 32
def dIdxBase (d : Nat) : Nat := fld d 408 48
def dGen (d : Nat) : Nat := fld d 456 8

/-- AUX of a paged reference: the side it is on, true for the destination. -/
def dPside (d : Nat) : Bool := bit (dAux d) 60
def dPagedSrc (d : Nat) : Bool := dPaged d && !dPside d
def dPagedDst (d : Nat) : Bool := dPaged d && dPside d
/-- AUX of MATCH: MFMT. -/
def dMfmt (d : Nat) : Nat := fld (dAux d) 0 4
/-- AUX of WINCTL: WOP and WCOUNT. -/
def dWop (d : Nat) : Nat := fld (dAux d) 0 2
def dWcount (d : Nat) : Nat := fld (dAux d) 2 16

/-- ACCFMT of the source row of Table 03-9 that CVT_IN selects (R232). -/
def cvtAcc (c : Nat) : Nat := if c = 6 then 0 else if c = 9 then 1 else 2

/-- Bytes of a source and of a destination element; 1 and 1 without a conversion. -/
def dBytesIn (d : Nat) : Nat := if dCvtEn d then accBytes (cvtAcc (dCvtIn d)) else 1
def dBytesOut (d : Nat) : Nat := if dCvtEn d then fmtBytes (dCvtOut d) else 1

/-- Rows of a block at format MFMT, at most (R234). -/
def matchRowsMax (fmt : Nat) : Nat :=
  let bs := blockBytes fmt
  if 512 % bs = 0 then 1 else if bs < 512 then 2 else cdiv bs 512

/-- Destination rows for `n` source rows (R232). -/
def dDestRows (d n : Nat) : Nat := cdiv (n * dBytesOut d) (dBytesIn d)

/-! ### Checks 2 and 3 of Table 10-5 -/

/-- Bits of AUX that a kind leaves reserved are 0 (Table 10-4). -/
def auxOk (d : Nat) : Bool :=
  match dKind d with
  | 0 => if dPaged d then fld (dAux d) 61 3 == 0 else dAux d == 0
  | 1 => true
  | 2 => fld (dAux d) 5 59 == 0
  | _ => fld (dAux d) 18 46 == 0

/-- Check 2: reserved fields, KIND and ranges. Log entry 42: DESIGN CHOICE. -/
def descRanges (d : Nat) : Bool :=
  fld d 310 2 == 0 && fld d 464 16 == 0 && decide (dKind d ≤ 3) && auxOk d && (!dCvtEn d || dCvtRound d != 3)

/-- The address is in tier 0x3 of a tile of this device, of the tile itself or of another as `own` says. -/
def State.tier3 (s : State) (p a : Nat) (own : Bool) : Bool :=
  match decodeAddr a with
  | some (.scr t _) => (s.logical p == some t) == own
  | _ => false

/-- The address is a row of this tile, at most row `last`. -/
def State.ownRow (s : State) (p a last : Nat) : Bool :=
  match decodeAddr a with
  | some (.scr t r) => s.logical p == some t && rowExists r && decide (r ≤ last)
  | _ => false

/-- Check 3: fields used against Table 10-4 or R232-R236. -/
def State.descUse (s : State) (p d : Nat) : Bool :=
  (if dCvtEn d then
     dKind d == 0 && !dPaged d && dSrcStride d == 1 && dDstStride d == 1 &&
     (dCvtIn d == 6 || dCvtIn d == 9 || dCvtIn d == 10) && closeFmtOk (cvtAcc (dCvtIn d)) (dCvtOut d) && dCvtOut d != 10 &&
     (dCvtIn d == 10 || fld d 312 16 == 0)
   else fld d 300 10 == 0 && fld d 312 16 == 0 && fld d 344 112 == 0) &&
  (if dPaged d then
     dKind d == 0 && (if dPside d then dDstStride d == 1 && dDst d == 0 else dSrcStride d == 1 && dSrc d == 0)
   else true) &&
  (!dWinEn d || (dKind d != 3 && s.tier3 p (dDst d) false)) &&
  (match dKind d with
   | 1 => dRows d == 0 || s.ownRow p (dAux d) 0x5FFF
   | 2 => dSrcStride d == 1 && decide (dMfmt d ≤ 10)
   | 3 => dRows d == 0 && dSrcStride d == 0 && dDstStride d == 0 &&
          (if dWop d = 0 then s.ownRow p (dSrc d) 0x87FF else if dWop d = 3 then s.ownRow p (dDst d) 0x87FF else true)
   | _ => true)

/-! ### Addresses (check 4) -/

/-- A place that a stream may read: not tier 0x4, and present or backed (R26, R27, R29, R31). -/
def State.srcPlace? (s : State) (a : Nat) : Option Place :=
  match decodeAddr a with
  | some pl => if pl.tier = 4 ∨ s.room pl = 0 then none else some pl
  | none => none

/-- A place that a stream may write: present or backed, or a peer window with a route (R327). -/
def State.dstPlace? (s : State) (a : Nat) : Option Place :=
  match decodeAddr a with
  | some (.peer h t w c off) => if h = s.house ∨ (s.route h).isSome then some (.peer h t w c off) else none
  | some pl => if s.room pl = 0 then none else some pl
  | none => none

/-! ### Paged references (R194-R198) -/

/-- Slot entry fields (Table 08-12). -/
def slPtAddr (e : Nat) : Nat := fld e 0 64
def slPages (e : Nat) : Nat := fld e 64 14
def slLength (e : Nat) : Nat := fld e 80 22
def slTokenRows (e : Nat) : Nat := fld e 104 16
def slPlanes (e : Nat) : Nat := fld e 120 16
def slGen (e : Nat) : Nat := fld e 136 16

/-- The fields of a slot entry lie in their ranges (check 3 of R197). -/
def slotOk (e : Nat) : Bool :=
  bit e 152 && fld e 78 2 == 0 && fld e 102 2 == 0 && fld e 153 327 == 0 && decide (slPages e ≤ 8192) &&
  decide (slLength e ≤ 2097152) && decide (slLength e ≤ 256 * slPages e) && decide (1 ≤ slTokenRows e) &&
  decide (slTokenRows e ≤ 256) && decide (1 ≤ slPlanes e) && decide (slPlanes e ≤ 4096) &&
  (match decodeAddr (slPtAddr e) with
   | some pl => decide (pl.tier ≤ 1)
   | none => false)

/-- Reads 64 bits or more of the row that holds byte `a`; none where nothing is backed. -/
def State.readField (s : State) (a bits : Nat) : State × Option Nat :=
  match s.srcPlace? (a - a % 512) with
  | none => (s, none)
  | some pl =>
    let (s, x) := s.readPlace pl
    (s, some (fld x.toNat (8 * (a % 512)) bits))

/-- Checks 1-5 of R197, with the slot entry read: status 0 when they pass. -/
def State.pagedStart (s : State) (p d : Nat) : State × Nat × Nat :=
  let aux := dAux d
  let slot := fld aux 33 11
  let (s, e?) := s.readField (s.live keySeqTable + 64 * slot) 512
  let bad (st : Nat) : State × Nat × Nat := (s.count1 0x0C01 p, st, 0)
  match e? with
  | none => bad stBadParam
  | some e =>
    if !crcOk64 e then bad stBadCrc
    else if !slotOk e then bad stBadParam
    else if slGen e ≠ fld aux 44 16 then bad stStale
    else if fld aux 21 12 ≥ slPlanes e then bad stBadParam
    else (s, stOk, e)

/-- A page entry's CHECK matches (R195). -/
def pageCheckOk (e : Nat) : Bool := fld e 1 8 == crc32c (setFld e 1 8 0) 8 % 256

/-- The base of page `idx` when the transfer first reaches it: checks 7 and 8 of R197. -/
def State.readPage (s : State) (e idx : Nat) : State × Nat × Nat :=
  let (s, x?) := s.readField (slPtAddr e + 8 * idx) 64
  match x? with
  | none => (s, stBadParam, 0)
  | some x =>
    if !pageCheckOk x then (s, stBadCrc, 0)
    else
      let base := x - x % 512
      match decodeAddr base with
      | none => (s, stBadParam, 0)
      | some pl =>
        if !bit x 0 ∨ pl.tier > 1 ∨ s.room pl = 0 then (s, stBadParam, 0)
        else if 256 * slTokenRows e * slPlanes e > s.room pl then (s, stLength, 0)
        else (s, stOk, base)

/-- The device address of row `i` of a paged transfer (R196): status, address, and the page reached. -/
def State.pagedAddr (s : State) (p : Nat) (st : Started) (i : Nat) : State × Nat × Nat × Option (Nat × Nat) :=
  let e := st.slotEnt
  let t := fld (dAux st.desc) 0 21 + i / slTokenRows e
  let r := i % slTokenRows e
  let at_ (base : Nat) : Nat := base + 512 * ((fld (dAux st.desc) 21 12 * 256 + t % 256) * slTokenRows e + r)
  if t ≥ slLength e then (s.count1 0x0C01 p, stLength, 0, st.page)
  else
    let fresh : State × Nat × Nat × Option (Nat × Nat) :=
      let (s, status, base) := s.readPage e (t / 256)
      if status ≠ stOk then (s.count1 0x0C01 p, status, 0, st.page) else (s, stOk, at_ base, some (t / 256, base))
    match st.page with
    | some (idx, base) => if idx = t / 256 then (s, stOk, at_ base, st.page) else fresh
    | none => fresh

/-! ### The destination of a descriptor -/

/-- The credit account a destination uses (R241); none when it is no window. -/
def State.acctKey (s : State) (p d : Nat) : Option AcctKey :=
  if dPagedDst d ∨ dKind d = 3 then none
  else match decodeAddr (dDst d) with
    | some (.peer h t w c _) => some ⟨h, t, c, w⟩
    | some (.scr t _) => if dWinEn d ∧ s.logical p ≠ some t then some ⟨s.house, t, false, dWindow d⟩ else none
    | _ => none

/-- The extent of a tier 0x4 destination fits the ROWS of a grant (R221). -/
def peerFits (d n rows : Nat) : Bool :=
  match decodeAddr (dDst d) with
  | some (.peer _ _ _ _ off) => decide (n = 0 ∨ off + (n - 1) * dDstStride d < rows)
  | _ => true

/-! ### Start checks 4-8 (Table 10-5) -/

/-- Source and destination extents in rows, as the start checks take them. -/
def srcExtent (d : Nat) : Nat := if dKind d = 2 then min (dRows d) 1 else dRows d
def dstExtent (d sel : Nat) : Nat :=
  match dKind d with
  | 1 => sel
  | 2 => dRows d * matchRowsMax (dMfmt d)
  | _ => dDestRows d (dRows d)

/-- The source and the destination whose addresses are used (Table 10-5). -/
def State.usedSrc (s : State) (d : Nat) : Option Place :=
  if srcExtent d = 0 ∨ dPagedSrc d then none else s.srcPlace? (dSrc d)
def State.usedDst (s : State) (d sel : Nat) : Option Place :=
  if dstExtent d sel = 0 ∨ dPagedDst d then none else s.dstPlace? (dDst d)

/-- Check 4: every address that is used names something present. `sel` is GATHER's count. -/
def State.addrStatus (s : State) (d sel : Nat) : Nat :=
  if (srcExtent d ≠ 0 ∧ !dPagedSrc d ∧ (s.usedSrc d).isNone) ∨
     (dstExtent d sel ≠ 0 ∧ !dPagedDst d ∧ (s.usedDst d sel).isNone) then stBadParam
  else stOk

/-- Checks 6 and 7: the extents stay in their regions and do not meet. Log entry 43: DEDUCED. -/
def State.extentChecks (s : State) (d sel : Nat) : Nat :=
  let n := srcExtent d
  let m := dstExtent d sel
  if (match s.usedSrc d with
      | some pl => decide ((n - 1) * dSrcStride d ≥ s.room pl)
      | none => false) || (match s.usedDst d sel with
      | some pl => decide ((m - 1) * dDstStride d ≥ s.room pl)
      | none => false) then stLength
  else match s.usedSrc d, s.usedDst d sel with
    | some a, some b => if dKind d ≠ 2 ∧ placesMeet a n (dSrcStride d) b m (dDstStride d) then stConflict else stOk
    | _, _ => stOk

/-- The bitmap of a GATHER: the indices of its set bits below ROWS, ascending (R233). -/
def State.readBitmap (s : State) (p d : Nat) : State × Option (List Nat) :=
  let n := dRows d
  if n = 0 then (s, some [])
  else match decodeAddr (dAux d) with
    | some (.scr _ r) =>
      if r + cdiv n 4096 > 0x6000 then (s, none)
      else
        let (s, x) := readRows s p r (cdiv n 4096)
        (s, some (setBits n x))
    | _ => (s, none)

/-! ### The queue register (Tables 10-1, 10-2) -/

/-- The descriptor has issued its last row transfer. -/
def Started.issued (st : Started) : Bool :=
  st.failAt.isSome || (st.reads == st.total && (dKind st.desc != 2 || st.entries == dRows st.desc))

/-- Source rows wholly used by the first `w` destination rows. -/
def Started.used (st : Started) (w : Nat) : Nat :=
  if w ≥ dDestRows st.desc st.total then st.total else w * dBytesIn st.desc / dBytesOut st.desc

/-- Source rows that the first `w` destination rows need. -/
def Started.need (st : Started) (w : Nat) : Nat := min st.total (cdiv (w * dBytesIn st.desc) (dBytesOut st.desc))

/-- Destination rows that it writes: all, or those before its failure. -/
def Started.limit (st : Started) : Nat :=
  match st.failAt with
  | some (l, _) => l
  | none => dDestRows st.desc st.total

/-- Destination rows it has still to write of those it knows of. -/
def Started.rowsLeft (st : Started) : Nat := st.limit - st.writes

/-- It has rows to write, known now or, for MATCH, with entries to come (R234). -/
def Started.writing (st : Started) : Bool :=
  decide (st.writes < st.limit) || (dKind st.desc == 2 && st.failAt.isNone && decide (st.entries < dRows st.desc))

def Started.arrived (st : Started) (i : Nat) : Bool := decide (i < st.used st.writes) || st.buf.any (fun e => e.1 == i)

/-- Reads issued whose row has not arrived, ascending. -/
def Started.missing (st : Started) : List Nat :=
  (List.range st.reads).filter (fun i => !st.arrived i)

/-- Row transfers outstanding (R239, R244). -/
def Started.outstanding (st : Started) (cancelling : Bool) : Nat :=
  let keep := if cancelling then st.used st.writes else if st.failAt.isSome then st.need st.limit else st.reads
  (st.reads - st.used st.done) - (st.buf.filter (fun e => e.1 ≥ keep)).length

def Queue.outstanding (u : Queue) : Nat := u.started.foldl (fun a st => a + st.outstanding u.cancelling.isSome) 0

/-- Transfers that the internal path may hold: the rows of the operations in flight that it serves, at most 128 (R239). -/
def Tile.internal (t : Tile) : Nat := min 128 (t.flights.foldl (fun a f => a + f.rows) 0)

def Tile.outstanding (t : Tile) : Nat := t.queues.foldl (fun a e => a + e.2.outstanding) 0

/-- A started descriptor waits for window credit or for match entries. -/
def State.starves (s : State) (p : Nat) (u : Queue) (st : Started) : Bool :=
  (dKind st.desc == 2 && st.failAt.isNone && decide (st.entries < dRows st.desc) && decide (st.reads = st.total) &&
    u.entries.isEmpty) ||
  (match s.acctKey p st.desc with
   | none => false
   | some k =>
     match (s.tile p).acct k with
     | none => false
     | some a => a.pending != 0 && decide (a.held < st.rowsLeft))

/-- STATE of Table 10-2. -/
def State.queueState (s : State) (p q : Nat) : Nat :=
  let u := s.queue p q
  if u.ringSlots = 0 then 0
  else if u.cancelling.isSome then 6
  else if u.started.any (fun st => s.starves p u st) then 4
  else if u.started.any (fun st => !st.issued) then 3
  else if u.unstarted ≠ 0 then 2
  else if u.started ≠ [] then 5
  else 1

/-- The queue register as it reads. -/
def State.queueBits (s : State) (p q : Nat) : Nat :=
  let u := s.queue p q
  pack [(0, 16, u.ringRow), (16, 13, u.ringSlots), (32, 7, u.maxOut), (39, 1, b2n u.pair), (48, 3, s.queueState p q),
    (51, 1, b2n u.shadow.isSome), (64, 12, u.head), (76, 13, u.unstarted), (96, 7, u.outstanding), (104, 8, u.lastGen),
    (112, 8, u.lastStatus), (120, 12, u.lastIndex), (136, 24, u.lastRows), (160, 24, u.lastDiscard)]

/-- A field of the register that is written lies outside its range (Table 10-1). -/
def queueFieldsBad (q x : Nat) : Bool :=
  let slots := fld x 16 13
  let out := fld x 32 7
  decide (fld x 0 16 > 0x5FFF ∨ slots > 4096 ∨ fld x 29 3 ≠ 0 ∨ out > 64 ∨ (slots = 0 ∧ out ≠ 0) ∨ (slots ≠ 0 ∧ out = 0)) ||
    (q % 2 == 1 && bit x 39)

/-- Status of a write to the register (R225). -/
def State.queueWriteStatus (s : State) (p q x : Nat) : Nat :=
  let slots := fld x 16 13
  if queueFieldsBad q x ∨ fld x 40 216 ≠ 0 then stBadParam
  else if slots ≠ 0 ∧ fld x 0 16 + cdiv slots 8 > 0x6000 then stLength
  else if s.queueState p q > 1 then stConflict
  else stOk

/-- The register's written fields; HEAD, UNSTARTED and SHADOW become 0. A pairing starts with the even queue (R228). -/
def Queue.write (u : Queue) (x : Nat) : Queue :=
  { u with ringRow := fld x 0 16, ringSlots := fld x 16 13, maxOut := fld x 32 7, pair := bit x 39, head := 0,
           unstarted := 0, shadow := none, rel := [], prevEnded := true, oddTurn := false }

/-! ### Release (R226, R243) -/

/-- The descriptor in ring slot `i`, read from its row. -/
def State.readSlot (s : State) (p q i : Nat) : State × Nat :=
  let u := s.queue p q
  let (s, x) := readRow s p (u.ringRow + i / 8)
  (s, elem 512 x.toNat (i % 8))

/-- The slots of a release of `n` that are running descriptors', which the release arms again (R226). -/
def Queue.rearmed (u : Queue) (n : Nat) : List Nat :=
  ((List.range n).map (fun i => (u.head + u.unstarted + i) % u.ringSlots)).filter
    (fun i => u.started.any (fun st => st.index == i))

/-- Releases `n` slots of a configured queue: the state and the status. Log entry 77: DESIGN CHOICE. -/
def State.releaseSlots (s : State) (p q n : Nat) (site : Option Site) : State × Nat :=
  let u := s.queue p q
  let rearms := u.rearmed n
  if rearms.length > 1 ∨ (rearms ≠ [] ∧ u.shadow.isSome) then (s.count1 0x0F01 p, stShadowFull)
  else if u.unstarted + n > u.ringSlots then (s, stNoResource)
  else
    let s := s.updQueue p q (fun u =>
      { u with unstarted := u.unstarted + n, rel := u.rel ++ List.replicate n site })
    match rearms with
    | i :: _ =>
      let (s, d) := s.readSlot p q i
      (s.updQueue p q (fun u => { u with shadow := some (i, d) }), stOk)
    | [] => (s, stOk)

/-! ### The start rule (R227, R228) -/

/-- The descriptor at HEAD as the engine would read it now. -/
def Tile.headDesc (t : Tile) (u : Queue) : Nat :=
  match u.shadow with
  | some (i, d) => if i = u.head then d else elem 512 (t.prog (u.ringRow + u.head / 8)) (u.head % 8)
  | none => elem 512 (t.prog (u.ringRow + u.head / 8)) (u.head % 8)

/-- It is the queue's turn in its pair, or its partner whose turn it is has nothing released. -/
def Tile.pairTurn (t : Tile) (q : Nat) : Bool :=
  let even := t.queue (q / 2 * 2)
  if even.pair then
    let turn := q / 2 * 2 + b2n even.oddTurn
    turn == q || (t.queue turn).unstarted == 0
  else true

/-- The descriptor at HEAD of a queue can start: the one before it has issued its last row transfer, or has ended, as it must
have under ORDER = 1. -/
def Tile.startable (t : Tile) (q : Nat) : Bool :=
  let u := t.queue q
  let d := t.headDesc u
  u.ringSlots != 0 && u.unstarted != 0 && u.cancelling.isNone && t.pairTurn q &&
  (u.prevEnded || (match u.started.getLast? with
   | none => true
   | some st => st.issued && !(crcOk64 d && dOrder d))) &&
  !u.started.any (fun st => st.index == u.head)

end Sys2Proof.Machine
end

