-- ==== Sys2Proof/Machine/StreamFlow.lean ====
section
/-! DEFINITION. Row transfers: the start of a descriptor (R227, R237), its reads and writes (R239, R240), conversion
(R232), window credit (R241, R242), endings (R238) and cancellation (R244-R246). `State.pump` does what a stream engine
does of itself after every event of its tile. -/

namespace Sys2Proof.Machine

def State.updStarted (s : State) (p q j : Nat) (f : Started → Started) : State :=
  s.updQueue p q (fun u => { u with started := modifyAt u.started j f })

/-! ### Endings (R238) -/

/-- What the end of a descriptor leaves: LAST fields, DONE_SIG, the completion entry and the counter. `trusted` is false
for a rejection at check 1 of Table 10-5. Every rejection and failure counts; the end of a cancelled descriptor is neither. -/
def State.descEnd (s : State) (p q : Nat) (st : Started) (status rows : Nat) (trusted : Bool) : State :=
  let d := st.desc
  let gen := if trusted then dGen d else 0
  let s := s.updQueue p q (fun u => { u with lastGen := gen, lastStatus := status, lastIndex := st.index, lastRows := rows })
  let s := if trusted ∧ dDoneEn d then s.addSignal p (dDoneSig d) 1 else s
  let s := match st.site with
    | some x =>
      if status ≠ stOk ∨ (trusted ∧ dCrec d) then
        s.entry p { bundle := x.bundle, slot := x.slot, list := x.list, status := status, detail := st.index,
                    opcode := 0x60, res0 := gen, res1 := rows }
      else s
    | none => s
  s.countIf (status != stOk && (s.queue p q).cancelling.isNone) 0x0F02 p

/-- An account that nothing uses is freed (R241, R325). Log entry 46: DEDUCED. -/
def State.freeAccts (s : State) (p : Nat) : State :=
  let t := s.tile p
  let inUse (a : Account) := t.queues.any (fun e => e.2.started.any (fun st =>
    match s.acctKey p st.desc with
    | some k => a.is k
    | none => false))
  s.setTile p { t with accounts := t.accounts.filter (fun a =>
    a.held != 0 || a.pending != 0 || a.tallyOut || inUse a) }

/-- A started descriptor leaves the queue and ends; an account on another device sends its TALLY (R323). -/
def State.endStarted (s : State) (p q j status : Nat) : State :=
  match (s.queue p q).started[j]? with
  | none => s
  | some st =>
    let s := s.updQueue p q (fun u =>
      { u with
        started := dropAt u.started j
        prevEnded := u.prevEnded || j + 1 == u.started.length })
    let s := s.descEnd p q st status st.done true
    let s := match s.acctKey p st.desc with
      | some k => if k.house ≠ s.house then s.sendTally p k else s
      | none => s
    s.freeAccts p

/-- Every row that a started descriptor will move has been written. -/
def Started.finished (st : Started) : Bool :=
  st.issued && st.missing.isEmpty && decide (st.writes = st.limit) && decide (st.done = st.writes)

/-- The status a descriptor ends with of itself. -/
def Started.status (st : Started) : Nat :=
  match st.failAt with
  | some (_, e) => e
  | none => stOk

/-- Descriptors that are finished end, the oldest of them first. -/
def State.endFinished (s : State) (p q : Nat) : Nat → State
  | 0 => s
  | n + 1 =>
    let u := s.queue p q
    if u.cancelling.isSome then s
    else match u.started.findIdx? Started.finished with
      | none => s
      | some j => State.endFinished (s.endStarted p q j ((u.started[j]?.map Started.status).getD stOk)) p q n

/-- A descriptor fails before destination row `l`; the earlier failure stands. -/
def Started.fail (st : Started) (l status : Nat) : Started :=
  match st.failAt with
  | some (l', _) => if l' ≤ l then st else { st with failAt := some (l, status) }
  | none => { st with failAt := some (l, status) }

/-! ### Reads (R231-R236, R239) -/

/-- The source row `i` of a started descriptor. -/
def Started.srcPlace (st : Started) (i : Nat) : Option Place :=
  let d := st.desc
  if dPagedSrc d then
    match st.sel[i]? with
    | some a => decodeAddr a
    | none => none
  else
    (decodeAddr (dSrc d)).map (fun pl =>
      match dKind d with
      | 1 => pl.plus (st.sel.getD i 0 * dSrcStride d)
      | 2 => pl.plus (st.sel.getD i 0)
      | _ => pl.plus (i * dSrcStride d))

/-- The buffer of match entries takes what a conc.match holds for it, up to 32 (R234). -/
def Queue.refill (u : Queue) : Queue :=
  let n := 32 - u.entries.length
  { u with
    entries := u.entries ++ u.held.take n
    held := u.held.drop n }

/-- MATCH takes its next buffered entry: the rows of the block it names join the rows to read (R234). -/
def State.takeEntry (s : State) (p q j : Nat) : State :=
  let u := s.queue p q
  match u.started[j]?, u.entries with
  | some st, e :: rest =>
    let bs := blockBytes (dMfmt st.desc)
    let pos := if bit (dAux st.desc) 4 then fld e 64 32 else fld e 32 32
    let rows := span (pos * bs / 512) ((pos * bs + bs - 1) / 512 - pos * bs / 512 + 1)
    let s := s.updQueue p q (fun u => { u with entries := rest }.refill)
    s.updStarted p q j (fun st => { st with entries := st.entries + 1, sel := st.sel ++ rows, total := st.total + rows.length })
  | _, _ => s

/-- Source row `i` is found unbacked: the descriptor ends before the destination rows that need it (R248). -/
def State.unbacked (s : State) (p q j i : Nat) : State :=
  (s.count1 0x0F05 p).updStarted p q j (fun st => st.fail (i * dBytesOut st.desc / dBytesIn st.desc) stBadParam)

/-- Issues the read of the next source row of started descriptor `j`, or finds that it fails there: past the region that
SRC_ADDR lies in for MATCH (R234), or in a place that is backed no more (R248). -/
def State.issueRead (s : State) (p q j : Nat) : State :=
  match (s.queue p q).started[j]? with
  | none => s
  | some st =>
    let i := st.reads
    let go (s : State) : State := s.updStarted p q j (fun st => { st with
      reads := st.reads + 1
      stamps := st.stamps ++ [(s.clock (dieOf p)).count] })
    if dPagedSrc st.desc then
      let (s, status, a, page) := s.pagedAddr p st i
      if status ≠ stOk then s.updStarted p q j (fun st => st.fail i status)
      else if ((decodeAddr a).map (fun pl => s.room pl)).getD 0 = 0 then s.unbacked p q j i
      else go (s.updStarted p q j (fun st => { st with page := page, sel := st.sel ++ [a] }))
    else if dKind st.desc = 2 then
      let room := ((decodeAddr (dSrc st.desc)).map (fun pl => s.room pl)).getD 0
      if room = 0 then s.unbacked p q j i
      else if st.sel.getD i 0 ≥ room then s.updStarted p q j (fun st => st.fail i stLength)
      else go s
    else
      match st.srcPlace i with
      | some pl => if s.room pl = 0 then s.unbacked p q j i else go s
      | none => s.unbacked p q j i

/-- The started descriptor of a queue that has a read to issue. -/
def Queue.next (u : Queue) : Option Nat :=
  if u.cancelling.isSome then none
  else u.started.findIdx? (fun st => st.failAt.isNone && decide (st.reads < st.total))

/-- The started descriptor of a queue whose next read can issue, if MAX_OUT and the tile's 256, which the internal path
shares, leave room. -/
def State.readable (s : State) (p q : Nat) : Option Nat :=
  let u := s.queue p q
  if u.outstanding ≥ u.maxOut ∨ (s.tile p).outstanding + (s.tile p).internal ≥ 256 then none else u.next

/-- A MATCH descriptor takes its next entry when it has issued the read of every row reached. Log entry 43: DEDUCED. -/
def State.feedMatch (s : State) (p q : Nat) : State :=
  let u := s.queue p q
  if u.entries.isEmpty ∨ u.cancelling.isSome then s
  else match u.started.findIdx? (fun st => dKind st.desc == 2 && st.failAt.isNone && decide (st.entries < dRows st.desc)) with
    | some j => if (u.started[j]?.map (fun st => st.reads == st.total)).getD false then s.takeEntry p q j else s
    | none => s

/-- The queues in the order of their turns: those that waited at their MAX_OUT when their turn came, then the others in
cyclic order after the queue served last (R239). -/
def Tile.turns (t : Tile) : List Nat :=
  let owed := t.owed.filter (fun q => (t.queue q).next.isSome)
  owed ++ ((List.range 8).map (fun i => (t.served + 1 + i) % 8)).filter (fun q => !owed.contains q)

/-- Queue `q` takes its turn; the others that have a read to issue keep theirs where it has come: those before it, which wait at
their MAX_OUT, and those whose turn came earlier. -/
def Tile.serve (t : Tile) (q : Nat) : Tile :=
  let passed := t.turns.takeWhile (fun r => r != q)
  { t with
    served := q
    owed := t.turns.filter (fun r => r != q && (t.queue r).next.isSome && (passed.contains r || t.owed.contains r)) }

/-- Queues issue one read each in the order of their turns, until none can (R239). -/
def State.pumpReads (s : State) (p : Nat) : Nat → State
  | 0 => s
  | n + 1 =>
    let s := (List.range 8).foldl (fun s q => s.feedMatch p q) s
    match (s.tile p).turns.find? (fun q => (s.readable p q).isSome) with
    | none => s
    | some q =>
      match s.readable p q with
      | none => s
      | some j => State.pumpReads ((s.updTile p (fun t => t.serve q)).issueRead p q j) p n

/-! ### Conversion (R232) -/

/-- Destination row `w` of a converting descriptor: its elements in order, zeros after the last. -/
def State.convertRow (s : State) (p q j w : Nat) (st : Started) : State × Row :=
  let d := st.desc
  let bi := dBytesIn d
  let bo := dBytesOut d
  let per := 512 / bo
  let n := min per (st.total * (512 / bi) - w * per)
  let rowAt (i : Nat) : Nat := match st.buf.find? (fun e => e.1 == i) with
    | some e => e.2.toNat
    | none => 0
  let idx := (List.range n).map (fun k => w * per + k)
  let vals := idx.map (fun e => accVal (cvtAcc (dCvtIn d)) (elem (8 * bi) (rowAt (e / (512 / bi))) (e % (512 / bi))) (dCvtAnchor d))
  let (s, words) := s.roundWords p (s.queue p q).owner (dCvtRound d) (dRngStream d) (dRngDraw d)
    (idx.map (fun e => dIdxBase d + e))
  let cs := (vals.zip words).map (fun e => convert (dCvtOut d) (dCvtRound d) e.2 e.1)
  let hit := (if cs.any (fun c => c.sat) then [0x0301] else []) ++ (if cs.any (fun c => c.nanI) then [0x0302] else [])
  let fresh := hit.filter (fun c => !st.counted.contains c)
  let s := fresh.foldl (fun s c => s.count1 c p) s
  let s := s.updStarted p q j (fun st => { st with counted := st.counted ++ fresh })
  (s, row (packElems (8 * bo) (cs.map (fun c => c.bits))))

/-! ### Writes (R240, R241, R322) -/

/-- Where destination row `w` goes. -/
inductive Target where
  /-- A row of memory or of this tile, by device address. -/
  | here (a : Nat)
  /-- A row sent over the mesh. -/
  | mesh (a : Nat)
  /-- A row of a window of another device, at this offset. -/
  | peer (off : Nat)
  | fails (status : Nat)
  /-- A place that is backed no more, or a house with no route (R248). -/
  | unbacked
deriving DecidableEq, Repr

/-- The destination of row `w`, for a paged destination after its translation. -/
def State.target (s : State) (p q j w : Nat) (st : Started) : State × Target :=
  let d := st.desc
  if dPagedDst d then
    let (s, status, a, page) := s.pagedAddr p st w
    if status ≠ stOk then (s, .fails status)
    else (s.updStarted p q j (fun st => { st with page := page }),
          if ((decodeAddr a).map (fun pl => s.room pl)).getD 0 = 0 then .unbacked else .here a)
  else
    let a := dDst d + 512 * (w * dDstStride d)
    match decodeAddr a with
    | some (.peer h _ _ _ off) =>
      (s, if h = s.house then .mesh a else if (s.route h).isNone then .unbacked else .peer off)
    | some (.scr t r) =>
      (s, if s.room (.scr t r) = 0 then .unbacked else if s.logical p = some t then .here a else .mesh a)
    | some pl => (s, if s.room pl = 0 then .unbacked else .here a)
    | none => (s, .unbacked)

/-- The message that carries a row over the mesh. Log entry 78: DEDUCED. -/
def State.meshRow (s : State) (p q : Nat) (d a gen remain : Nat) (x : Row) : Mesh :=
  let src := (s.logical p).getD 0
  match decodeAddr a with
  | some (.peer _ t w c off) => .row src q t c (some w) false gen off remain x
  | some (.scr t r) => .row src q t false (if dWinEn d then some (dWindow d) else none) true gen r remain x
  | _ => .row src q 0 false none true gen 0 remain x

/-- Destination row `w` can be formed: every source row it needs has arrived. -/
def Started.ready (st : Started) (w : Nat) : Bool :=
  decide (w < st.limit) &&
  (span (st.used w) (st.need (w + 1) - st.used w)).all (fun i => st.buf.any (fun e => e.1 == i))

/-- The contents of destination row `w`. -/
def State.destRow (s : State) (p q j w : Nat) (st : Started) : State × Row :=
  if dCvtEn st.desc then s.convertRow p q j w st
  else (s, match st.buf.find? (fun e => e.1 == w) with
    | some e => e.2
    | none => 0)

/-- Books of `n` destination rows issued from started descriptor `j`: the rows leave the reorder buffer. -/
def Started.wrote (st : Started) (n : Nat) : Started :=
  let st := { st with writes := st.writes + n }
  { st with buf := st.buf.filter (fun e => e.1 ≥ st.used st.writes) }

/-- The rows of a data frame: how many of the ready rows go, and their contents (R322). -/
def State.frameRows (s : State) (p q j : Nat) : Nat → Nat → State × List Row
  | 0, _ => (s, [])
  | n + 1, w =>
    match (s.queue p q).started[j]? with
    | none => (s, [])
    | some st =>
      let (s, x) := s.destRow p q j w st
      let (s, xs) := State.frameRows s p q j n (w + 1)
      (s, x :: xs)

/-- REMAIN of destination row `w` of a started descriptor: its read set the deadline at its issue, as a reading of all 48 bits, so
that a row kept behind it for long stays overdue (R269). -/
def State.rowRemain (s : State) (p w : Nat) (st : Started) : Nat :=
  let c := (s.clock (dieOf p)).count
  min (untilReading c (st.stamps.getD (st.used w) c + dBudget st.desc)) 65535

/-- Hands one data frame of `n` rows at offset `off` to egress: the rows are complete at once (Table 10-6). -/
def State.sendRows (s : State) (p q j w n off : Nat) (k : AcctKey) (a : Account) : State :=
  let remain := (((s.queue p q).started[j]?).map (fun st => s.rowRemain p w st)).getD 0
  let (s, rows) := s.frameRows p q j n w
  let sent := (a.sent + n) % 2 ^ 32
  let s := s.updAcct p k (fun a => { a with sent := sent, held := a.held - n })
  let s := s.updStarted p q j (fun st => { st.wrote n with done := st.done + n })
  match s.route k.house with
  | none => s
  | some port =>
    s.sendData port
      { dst := k.house, src := s.house, tile := k.tile, window := k.window, gen := a.gen, off := off, rows := n,
        srcTile := (s.logical p).getD 0, curator := k.curator, sent := sent,
        remain := remain } rows

/-- Issues the next destination write of started descriptor `j`, when its row is ready and its credit held. Nothing
happens otherwise. -/
def State.issueWrite (s : State) (p q j : Nat) : State :=
  match (s.queue p q).started[j]? with
  | none => s
  | some st =>
    let w := st.writes
    if !st.ready w then s
    else
      let d := st.desc
      let acct := match s.acctKey p d with
        | some k => (s.tile p).acct k
        | none => none
      let held := match s.acctKey p d, acct with
        | some _, some a => a.held
        | some _, none => 0
        | none, _ => 1
      if held = 0 then s
      else
        let (s, tgt) := s.target p q j w st
        match tgt with
        | .fails status => s.updStarted p q j (fun st => st.fail w status)
        | .unbacked => (s.count1 0x0F05 p).updStarted p q j (fun st => st.fail w stBadParam)
        | .here a =>
          let (s, x) := s.destRow p q j w st
          s.updStarted p q j (fun st => { st.wrote 1 with out := st.out ++ [(a, x, 0)] })
        | .mesh a =>
          let (s, x) := s.destRow p q j w st
          let gen := match acct with
            | some c => c.gen
            | none => 0
          let s := match s.acctKey p d with
            | some k => s.updAcct p k (fun c => { c with sent := (c.sent + 1) % 2 ^ 32, held := c.held - 1 })
            | none => s
          (s.post (s.meshRow p q d a gen (s.rowRemain p w st) x)).updStarted p q j (fun st => { st.wrote 1 with out := st.out ++ [(a, x, 0)] })
        | .peer off =>
          match s.acctKey p d, acct with
          | some k, some a =>
            let most := if dDstStride d = 1 then min 8 a.held else 1
            let n := (List.range most).foldl (fun n i => if n = i ∧ st.ready (w + i) then i + 1 else n) 0
            s.sendRows p q j w n off k a
          | _, _ => s

/-- Writes of a queue issue in order: a descriptor's after every write of the one before it. -/
def State.pumpWrites (s : State) (p q : Nat) : Nat → State
  | 0 => s
  | n + 1 =>
    let u := s.queue p q
    if u.cancelling.isSome then s
    else match u.started.findIdx? (fun st => !(st.issued && decide (st.writes = st.limit))) with
      | none => s
      | some j =>
        match u.started[j]? with
        | none => s
        | some st => if st.ready st.writes then State.pumpWrites (s.issueWrite p q j) p q n else s

/-! ### Credit (R241, R242) -/

/-- Credits that started descriptor `j` lacks, when it must ask for them now: for all its rows, or for those before its
failure (R238). -/
def State.shortCredits (s : State) (p : Nat) (st : Started) : Option (AcctKey × Nat) :=
  match s.acctKey p st.desc with
  | none => none
  | some k =>
    match (s.tile p).acct k with
    | none => none
    | some a =>
      let left := st.rowsLeft
      if a.held < left ∧ a.pending = 0 then some (k, min (left - a.held) 65535) else none

/-- Requests for what the running descriptors of a queue lack. A request that cannot be sent ends its descriptor.
Log entry 44: DEDUCED. -/
def State.pumpRequests (s : State) (p q : Nat) : Nat → State
  | 0 => s
  | n + 1 =>
    let u := s.queue p q
    if u.cancelling.isSome then s
    else match u.started.findIdx? (fun st => (s.shortCredits p st).isSome) with
      | none => s
      | some j =>
        match u.started[j]? with
        | none => s
        | some st =>
          match s.shortCredits p st with
          | none => s
          | some (k, count) =>
            let (s, status) := s.sendRequest p k count true
            let s := if status = stOk then s.updAcct p k (fun a => { a with pending := count })
              else s.updStarted p q j (fun st => st.fail st.writes status)
            State.pumpRequests s p q n

/-- What the engine of a tile does of itself: writes, endings, requests, and reads with the match entries that give rise to
them. -/
def State.pump (s : State) (p : Nat) : State :=
  let each (s : State) (f : State → Nat → State) : State := (List.range 8).foldl f s
  let s := each s (fun s q => s.pumpWrites p q 256)
  let s := each s (fun s q => s.endFinished p q (s.queue p q).started.length)
  let s := each s (fun s q => s.pumpRequests p q (s.queue p q).started.length)
  let s := s.pumpReads p 256
  each s (fun s q => s.endFinished p q (s.queue p q).started.length)

/-! ### The start of a descriptor (R227, R237) -/

def Started.fresh (index d : Nat) (site : Option Site) : Started :=
  { index := index, desc := d, site := site, total := 0, sel := [], entries := 0, reads := 0, buf := [], writes := 0,
    done := 0, out := [], failAt := none, page := none, slotEnt := 0, counted := [], stamps := [] }

/-- WINCTL: the operation on the tile's own window and the status it ends with (R235). -/
def State.winctl (s : State) (p d : Nat) : State × Nat :=
  let n := dWindow d
  match dWop d with
  | 0 =>
    match s.srcPlace? (dSrc d) with
    | none => (s, stBadParam)
    | some pl =>
      let (s, x) := s.readPlace pl
      s.openWindow p n (fld x.toNat 0 256)
  | 1 => (s.closeWindow p n, stOk)
  | 2 => (s.returnCredits p n (dWcount d), stOk)
  | _ =>
    match s.dstPlace? (dDst d) with
    | none => (s, stBadParam)
    | some pl => (s.writePlace pl (row (s.win p n).bits), stOk)

/-- Checks 4-8 of a data transfer, and its start. -/
def State.beginTransfer (s : State) (p q : Nat) (st : Started) : State :=
  let d := st.desc
  let (s, bits) := if dKind d = 1 then s.readBitmap p d else (s, some [])
  let sel := bits.getD []
  let a := s.addrStatus d sel.length
  let (s, b, ent) := if a = stOk ∧ dPaged d ∧ dRows d ≠ 0 then s.pagedStart p d else (s, stOk, 0)
  let c := if bits.isNone then stLength else s.extentChecks d sel.length
  let status := if a ≠ stOk then a else if b ≠ stOk then b else c
  let key := if dstExtent d sel.length = 0 then none else s.acctKey p d
  let fits := match key with
    | none => true
    | some k =>
      match (s.tile p).acct k with
      | some ac => !ac.known || peerFits d (dstExtent d sel.length) ac.rows
      | none => true
  if status ≠ stOk then s.descEnd p q st status 0 true
  else if !fits then s.descEnd p q st stLength 0 true
  else
    let (s, ok) := match key with
      | some k => s.takeAcct p k
      | none => (s, true)
    if !ok then s.descEnd p q st stNoResource 0 true
    else
      let total := match dKind d with
        | 1 => sel.length
        | 2 => 0
        | _ => dRows d
      if total = 0 ∧ (dKind d ≠ 2 ∨ dRows d = 0) then s.descEnd p q st stOk 0 true
      else s.updQueue p q (fun u =>
        { u with
          started := u.started ++ [{ st with total := total, sel := sel, slotEnt := ent }]
          prevEnded := false })

/-- The descriptor at HEAD starts: it is read, HEAD advances, and it is checked in the order of Table 10-5.
Log entry 77: DESIGN CHOICE. -/
def State.startDesc (s : State) (p q : Nat) : State :=
  let u := s.queue p q
  let fromShadow := match u.shadow with
    | some (i, d) => if i = u.head then some d else none
    | none => none
  let (s, d) := match fromShadow with
    | some d => (s, d)
    | none => s.readSlot p q u.head
  let st := Started.fresh u.head d (match u.rel with
    | x :: _ => x
    | [] => none)
  let s := s.updQueue p q (fun u =>
    { u with head := (u.head + 1) % u.ringSlots, unstarted := u.unstarted - 1, rel := u.rel.drop 1,
             shadow := if fromShadow.isSome then none else u.shadow, prevEnded := true })
  let s := s.updQueue p (q / 2 * 2) (fun e => if e.pair then { e with oddTurn := q % 2 == 0 } else e)
  if !crcOk64 d then s.descEnd p q st stBadCrc 0 false
  else if !descRanges d ∨ !s.descUse p d then s.descEnd p q st stBadParam 0 true
  else if dKind d = 3 then
    let (s, status) := s.winctl p d
    s.descEnd p q st status 0 true
  else s.beginTransfer p q st

/-- The occasion of the start rows of the opcode table: the descriptor at HEAD of a queue of logical tile `t` can start
and `m` holds of it. -/
def State.startIf (s : State) (t q : Nat) (m : Nat → Bool) : State :=
  match s.phys t with
  | none => s
  | some p =>
    let x := s.tile p
    if q < 8 ∧ x.startable q ∧ m (x.headDesc (x.queue q)) then (s.startDesc p q).pump p else s

/-- COPY, and any descriptor of a reserved KIND, which check 2 rejects. Log entry 42: DESIGN CHOICE. -/
def execStrCopy (t q : Nat) (s : State) : Result := .next (s.startIf t q (fun d => dKind d == 0 || decide (dKind d > 3)))
def execStrGather (t q : Nat) (s : State) : Result := .next (s.startIf t q (fun d => dKind d == 1))
def execStrMatch (t q : Nat) (s : State) : Result := .next (s.startIf t q (fun d => dKind d == 2))
def execWinctlOpen (t q : Nat) (s : State) : Result := .next (s.startIf t q (fun d => dKind d == 3 && dWop d == 0))
def execWinctlClose (t q : Nat) (s : State) : Result := .next (s.startIf t q (fun d => dKind d == 3 && dWop d == 1))
def execWinctlReturn (t q : Nat) (s : State) : Result := .next (s.startIf t q (fun d => dKind d == 3 && dWop d == 2))
def execWinctlRead (t q : Nat) (s : State) : Result := .next (s.startIf t q (fun d => dKind d == 3 && dWop d == 3))

/-! ### Returns and completions -/

/-- The outstanding reads of a queue whose rows have not arrived: (started descriptor, source row). -/
def Queue.missing (u : Queue) : List (Nat × Nat) :=
  ((List.range u.started.length).zip u.started).flatMap (fun e => e.2.missing.map (fun i => (e.1, i)))

/-- A read that was issued to a place still returns its row: the place is backed, or in an aperture that is being
withdrawn (R291). -/
def State.answers (s : State) (pl : Place) : Bool :=
  s.room pl != 0 ||
  (match pl with
   | .comp r => s.mem.leaving.any (fun e => inSpan e.1.base e.1.rows r)
   | _ => false)

/-- Row `i` of started descriptor `j` arrives: it is read now, or found unbacked (R248). -/
def State.rowReturns (s : State) (p q j i : Nat) (e : ReadErr) : State :=
  match (s.queue p q).started[j]? with
  | none => s
  | some st =>
    let arrive (s : State) (x : Row) : State := s.updStarted p q j (fun st => { st with buf := st.buf ++ [(i, x)] })
    match st.srcPlace i with
    | some pl =>
      if s.answers pl then
        let (s, x) := s.readTier pl e
        arrive s x
      else arrive (s.unbacked p q j i) 0
    | none => arrive (s.unbacked p q j i) 0

/-- The k-th outstanding read of a queue returns (R240). -/
def execRowReadReturn (t q k : Nat) (hbmErr : ReadErr) (s : State) : Result :=
  .next (match s.phys t with
    | none => s
    | some p =>
      match (s.queue p q).missing[k]? with
      | some (j, i) => (s.rowReturns p q j i hbmErr).pump p
      | none => s)

/-- The way of a row over the mesh: sender's tile and queue, and the tile, window or row space it goes to. Rows of one way
arrive in order (R223). -/
def Mesh.way : Mesh → Option (Nat × Nat × Nat × Bool × Option Nat × Bool)
  | .row src q t c w dev _ _ _ _ => some (src, q, t, c, w, dev)
  | _ => none

/-- A write goes over the mesh. -/
def State.overMesh (s : State) (p a : Nat) : Bool :=
  match decodeAddr a with
  | some (.scr t _) => s.logical p != some t
  | some (.peer _ _ _ _ _) => true
  | _ => false

/-- The owner has acknowledged the oldest write of started descriptor `st`, when it went over the mesh: of the rows of its way
fewer are on the mesh than the queue still counts as issued (R240). -/
def State.acked (s : State) (p q : Nat) (u : Queue) (st : Started) : Bool :=
  match st.out with
  | [] => false
  | (a, _, _) :: _ =>
    let wayOf (d a : Nat) := (s.meshRow p q d a 0 0 0).way
    let outs := u.started.flatMap (fun e => (e.out.filter (fun x => s.overMesh p x.1)).map (fun x => wayOf e.desc x.1))
    let sent := s.mesh.filterMap Mesh.way
    !s.overMesh p a ||
    decide ((sent.filter (fun w => some w == wayOf st.desc a)).length < (outs.filter (fun w => w == wayOf st.desc a)).length)

/-- A row to be written to companion memory, but for the lines of `mask`, which a snoop has completed already (R290). -/
def State.keepLines (s : State) (pl : Place) (x : Row) (mask : Nat) : Row :=
  match pl with
  | .comp r =>
    if mask = 0 then x
    else
      let old := Sparse.get 0 s.mem.comp r
      row (packElems 512 (tabulate 8 (fun i => elem 512 (if bit mask i then old.toNat else x.toNat) i)))
  | _ => x

/-- The oldest write of started descriptor `j` completes: memory takes the row. -/
def State.completeWrite (s : State) (p q j : Nat) : State :=
  match (s.queue p q).started[j]? with
  | none => s
  | some st =>
    match st.out with
    | [] => s
    | (a, x, mask) :: rest =>
      let s := if s.overMesh p a then s
        else match decodeAddr a with
          | some pl => s.writePlace pl (s.keepLines pl x mask)
          | none => s
      s.updStarted p q j (fun st => { st with out := rest, done := st.done + 1 })

/-- The oldest write of a queue that can complete does so, at its tier's point; a row on the mesh once the owner has
acknowledged that row. -/
def execRowWriteComplete (t q : Nat) (s : State) : Result :=
  .next (match s.phys t with
    | none => s
    | some p =>
      let u := s.queue p q
      match u.started.findIdx? (s.acked p q u) with
      | none => s
      | some j => (s.completeWrite p q j).pump p)

/-! ### Grants (R242) -/

/-- A descriptor of a tile that uses an account, not in a cancelling queue, and meets `f`, fails with a status. -/
def State.failUsers (s : State) (p : Nat) (k : AcctKey) (f : Started → Option Nat) : State :=
  (List.range 8).foldl (fun s q =>
    let u := s.queue p q
    if u.cancelling.isSome then s
    else s.updQueue p q (fun u => { u with started := u.started.map (fun st =>
      if s.acctKey p st.desc = some k then
        match f st with
        | some status => st.fail st.writes status
        | none => st
      else st) })) s

/-- A grant reaches the account of physical tile `p`. A status other than OK ends each descriptor that lacks credits for its
rows (R242); a new generation, of a refusal too where the account had one, has the extent of each that still writes checked
against its ROWS (R221). Log entry 38: DESIGN CHOICE. -/
def State.grant (s : State) (p : Nat) (k : AcctKey) (g : Grant) : State :=
  match (s.tile p).acct k with
  | none => s
  | some a =>
    let turns := !a.known || a.gen != g.gen
    let a' : Account :=
      { a with gen := g.gen, rows := if turns then g.rows else a.rows, known := a.known || g.status == stOk,
               sent := if a.known && a.gen != g.gen then 0 else a.sent,
               held := (if turns then 0 else a.held) + g.granted, pending := g.pending }
    let s := s.updAcct p k (fun _ => a')
    let s := if g.status ≠ stOk then
        s.failUsers p k (fun st => if a'.held < st.rowsLeft then some g.status else none)
      else s
    let s := if turns ∧ a'.known then
        s.failUsers p k (fun st =>
          if st.writing ∧ !peerFits st.desc (dstExtent st.desc st.sel.length) a'.rows then some stLength else none)
      else s
    (s.pump p).freeAccts p

/-- Grant `k` of the mesh reaches the writer (R242). -/
def execCreditGrant (k : Nat) (s : State) : Result :=
  .next (match s.take k with
    | some (.grant dst owner win curator status gen rows granted pending, s) =>
      (match s.phys dst with
      | some p => s.grant p ⟨s.house, owner, curator, win⟩ ⟨status, gen, rows, granted, pending⟩
      | none => s)
    | _ => s)

/-! ### Cancellation (R244-R246) -/

def Queue.idle (u : Queue) : Bool := u.unstarted == 0 && u.started.isEmpty && u.cancelling.isNone

/-- Withdraws the pending requests of the windows that a queue's started descriptors write. -/
def State.withdraw (s : State) (p q : Nat) : State :=
  let keys := ((s.queue p q).started.filterMap (fun st => s.acctKey p st.desc)).eraseDups
  keys.foldl (fun s k =>
    match (s.tile p).acct k with
    | some a => if a.pending ≠ 0 then (s.sendRequest p k 1 false).1 else s
    | none => s) s

/-- Steps 1-4 of a cancellation of a queue that is not idle. The buffered match entries are discarded; those that a conc.match
still holds then find room (R234, R244). Log entry 45: DEDUCED. -/
def State.beginCancel (s : State) (p q : Nat) (by_ : CancelBy) : State :=
  (s.updQueue p q (fun u =>
    { u with cancelling := some { dropped := u.unstarted, by_ := by_, since := (s.clock (dieOf p)).count }, unstarted := 0, rel := [], shadow := none,
             entries := [] }.refill)).withdraw p q

/-- The oldest str.go or str.cancel in flight for a queue. -/
def Flight.onQueue (q : Nat) (f : Flight) : Bool := f.held && f.units == [.str q]

/-- It completes, with a status and results. -/
def State.queueOpDone (s : State) (p q status res0 res1 : Nat) : State :=
  let t := s.tile p
  match t.flights.findIdx? (Flight.onQueue q) with
  | none => s
  | some k =>
    let s := s.setTile p { t with flights := dropAt t.flights k }
    (t.flights[k]?.map (fun f => s.complete p { f with status := status, res0 := res0, res1 := res1 })).getD s

/-- The end of a cancellation answers whoever asked for it, with the bytes discarded and the descriptors dropped. -/
def State.answerCancel (s : State) (p q : Nat) (by_ : CancelBy) (bytes dropped : Nat) : State :=
  match by_ with
  | .op => s.queueOpDone p q stOk bytes dropped
  | .cmd n => s.finalOk n [bytes, dropped]
  | .stop => s

/-- A cancellation finds its queue idle: it reports 0 in both, and it counts (R244). -/
def State.cancelIdle (s : State) (p q : Nat) : State :=
  (s.updQueue p q (fun u => { u with lastDiscard := 0 })).count1 0x0F03 p

/-- A str.go that waited behind a cancellation releases from the unchanged HEAD and completes. -/
def State.goBehind (s : State) (p q count : Nat) : State :=
  let site := ((s.tile p).flights.find? (Flight.onQueue q)).map (fun f => (⟨f.list, f.bundle, f.slot⟩ : Site))
  let (s, st) := s.releaseSlots p q count site
  s.queueOpDone p q st 0 0

/-- What waited behind a cancellation is served, first come first, until another cancellation begins (R165, R300).
Log entry 45: DEDUCED. -/
def State.serveBehind (s : State) (p q : Nat) : Nat → State
  | 0 => s
  | n + 1 =>
    let u := s.queue p q
    if u.cancelling.isSome then s
    else match u.behind with
      | [] => s
      | b :: rest =>
        let s := s.updQueue p q (fun u => { u with behind := rest })
        State.serveBehind (match b with
          | .go count => s.goBehind p q count
          | .goCmd c count =>
            let (s, st) := s.releaseSlots p q count none
            s.final c st 0 []
          | .cancel by_ =>
            if (s.queue p q).idle then (s.cancelIdle p q).answerCancel p q by_ 0 0 else s.beginCancel p q by_) p q n

/-- Rows read or being read that a cancellation discards of a started descriptor: those that no issued write has used. Of one that
has failed, the rows that only the destination rows after its failure need went with the failure (R238, R244).
Log entry 45: DEDUCED. -/
def Started.discards (st : Started) : List Nat :=
  let all := if st.failAt.isSome then min st.reads (st.need st.limit) else st.reads
  span (st.used st.writes) (all - st.used st.writes)

/-- Of those, the rows that have not arrived. -/
def Queue.late (u : Queue) : Nat :=
  u.started.foldl (fun a st => a + (st.discards.filter (fun i => st.missing.contains i)).length) 0

/-- Step 5 on a queue: started descriptors end CANCELLED in ring order, and the queue is idle; then what waited behind the
cancellation is served. Log entry 45: DEDUCED. -/
def State.finishCancel (s : State) (p q abandoned : Nat) : State :=
  let u := s.queue p q
  match u.cancelling with
  | none => s
  | some c =>
    let rows := u.started.foldl (fun a st => a + st.discards.length) 0
    let bytes := 512 * (rows - abandoned)
    let s := u.started.foldl (fun s _ => s.endStarted p q 0 stCancelled) s
    let s := s.updQueue p q (fun u =>
      { u with cancelling := none, unstarted := 0, rel := [], shadow := none, lastDiscard := bytes })
    let s := s.count1 0x0F03 p
    (s.answerCancel p q c.by_ bytes c.dropped).serveBehind p q u.behind.length

/-- A cancellation reaches a queue: behind one in progress it waits; an idle queue it ends at once (R244). -/
def State.cancelQueue (s : State) (p q : Nat) (by_ : CancelBy) : State :=
  let u := s.queue p q
  if u.cancelling.isSome then s.updQueue p q (fun u => { u with behind := u.behind ++ [.cancel by_] })
  else if u.idle then s.cancelIdle p q
  else s.beginCancel p q by_

/-- Every outstanding read of a cancelling queue has arrived and every write issued is complete (R244). -/
def execCancelComplete (t q : Nat) (s : State) : Result :=
  .next (match s.phys t with
    | none => s
    | some p =>
      let u := s.queue p q
      if u.cancelling.isSome ∧ u.missing = [] ∧ u.started.all (fun st => st.out.isEmpty) then
        (s.finishCancel p q 0).pump p
      else s)

/-- Writes that a queue has issued all complete. Log entry 45: DEDUCED. -/
def State.flushWrites (s : State) (p q : Nat) : State :=
  let u := s.queue p q
  ((List.range u.started.length).zip u.started).foldl (fun s e =>
    e.2.out.foldl (fun s _ => s.completeWrite p q e.1) s) s

/-! ### str.go and str.cancel -/

/-- The queue belongs to another work list of the running launch (R188). -/
def Queue.foreign (u : Queue) (l : Nat) : Bool :=
  match u.owner with
  | some w => w != l
  | none => false

/-- A queue belongs to the first list of the launch that issues str.go or str.cancel on it, whatever becomes of the
operation (R188). Log entry 82: DEDUCED. -/
def State.ownQueue (s : State) (p q l : Nat) : State := s.updQueue p q (fun u => { u with owner := some l })

/-- The flight of a str.go or str.cancel that the queue serves later. -/
def State.waitOnQueue (s : State) (p q : Nat) (o : Op) : State :=
  (s.updTile p (fun t => { t with flights := t.flights ++ [o.flight (okOut s) [.str q] [] [] true] })).pastSlot p o

/-- str.go releases COUNT slots (R226) and completes at Issue; behind a cancellation of its queue it waits for the end of
that (R165, R244). -/
def opStrGo (p : Nat) (o : Op) (s : State) : State :=
  let q := o.f 16 3
  let u := s.queue p q
  if u.foreign o.list then (failOut s stConflict 0).now p o []
  else
    let s := s.ownQueue p q o.list
    if u.ringSlots = 0 then (failOut s stBadParam 0).now p o []
    else if u.cancelling.isSome then
      (s.updQueue p q (fun u => { u with behind := u.behind ++ [.go (o.f 19 16)] })).waitOnQueue p q o
    else
      let (s, st) := s.releaseSlots p q (o.f 19 16) (some ⟨o.list, o.bundle, o.slot⟩)
      (if st = stOk then okOut s else failOut s st 0).now p o []

/-- str.cancel completes at step 5 of R244. Log entry 75: DEDUCED. -/
def opStrCancel (p : Nat) (o : Op) (s : State) : State :=
  let q := o.f 16 3
  let u := s.queue p q
  if u.foreign o.list then (failOut s stConflict 0).now p o []
  else
    let s := s.ownQueue p q o.list
    if u.ringSlots = 0 then (failOut s stBadParam 0).now p o []
    else if u.idle then (okOut (s.cancelIdle p q)).now p o []
    else (s.cancelQueue p q .op).waitOnQueue p q o

def execStrGo (t l : Nat) (s : State) : Result := .next (s.issue t l false (fun c => c == 0x60) opStrGo)
def execStrCancel (t l : Nat) (s : State) : Result := .next (s.issue t l false (fun c => c == 0x61) opStrCancel)
def execCSgo (t l : Nat) (s : State) : Result := .next (s.issue t l true (fun c => c == 0x60) opStrGo)
def execCScancel (t l : Nat) (s : State) : Result := .next (s.issue t l true (fun c => c == 0x61) opStrCancel)

end Sys2Proof.Machine
end

