-- ==== Sys2Proof/Machine/Arbiters.lean ====
section
/-! DEFINITION. Arbitration: ranks (R270), the decision in the handshake (R271, R272), locks and preemption (R273-R276), the
stop of a launch (R246), and what the interval counters bring about at the arbiters (R270, R277-R280). -/

namespace Sys2Proof.Machine

/-- Stores an arbiter; one that is as at reset is not listed. -/
def State.setArb (s : State) (r : ResId) (x : Arb) : State :=
  let rest := s.arbs.filter (fun e => e.1 != r)
  { s with arbs := if x = Arb.reset then rest else rest ++ [(r, x)] }

/-- Die of an arbiter: a channel lies on die c / 8, a port on the die of its lane in use (Table 01-3). -/
def State.resDie (s : State) : ResId → Nat
  | .bank b => dieOf (match b with
    | .scr p _ => p
    | .acc p _ _ => p)
  | .hbm c => c / 8
  | .xing d _ _ => d
  | .mesh p _ => dieOf p
  | .cwy n => (s.cport n).die n

/-- A transfer has more than one beat (Table 12-1). -/
def manyBeats : ResId → Bool
  | .hbm _ => true
  | .xing _ _ _ => true
  | _ => false

/-- Class P occurs at scratchpad banks, HBM channels, crossings and mesh outputs (R273). -/
def takesClassP : ResId → Bool
  | .bank (.acc _ _ _) => false
  | .cwy _ => false
  | _ => true

/-- Watchdog setting of a resource (Table 12-5). -/
def watchdogKey : ResId → Nat
  | .bank (.scr _ _) => 0x20
  | .bank (.acc _ _ _) => 0x21
  | .hbm _ => 0x22
  | .xing _ _ _ => 0x23
  | .mesh _ _ => 0x24
  | .cwy _ => 0x25

/-! ### The request (R268, R269) -/

/-- Budget in ns of a requester whose budget is a number of Table 12-3; a debug command's accesses are the command engine's. -/
def budgetOf : Requester → Nat
  | .operand => 16
  | .fetch => 32
  | .engine => 64
  | .internal => 128
  | .service => 256
  | .debug => 256
  | .writeBack => 1024
  | _ => 0

/-- CLASS and REMAIN with which a requester enters its first arbiter (R269, R273); none where the requester does not exist. A
stream's are those of the descriptor that makes the request: under R227 two of a queue may have started. -/
def State.entryOf (s : State) (k : Requester) (read : Bool) : Option (Bool × Nat) :=
  match k with
  | .stream t q j => (s.phys t).bind (fun p =>
    ((s.queue p q).started[j]?).map (fun st => (read && dClass st.desc, dBudget st.desc)))
  | .window t n => (s.phys t).map (fun p => (false, min (untilReading (s.clock (dieOf p)).count (s.win p n).due) 65535))
  | .debug => if s.fuses.debug then some (false, budgetOf k) else none
  | k => some (false, budgetOf k)

/-- A request as an arbiter holds it: with the deadline it brings, or the one that its REMAIN sets there (R269). Class P and
LOCK stand where R273 and R274 let them, and the header's CLASS goes on with the request; the debug port has EMERG at every arbiter, an HBM channel's too (R286). -/
def State.makeReq (s : State) (r : ResId) (h : ReqHdr) (deadline : Option Nat) : Req :=
  let classP := h.classP && takesClassP r
  { classP := classP
    headP := h.classP
    deadline := deadline.getD (((s.clock (s.resDie r)).count + h.remain % 65536) % 2 ^ 20)
    overdue := h.overdue
    lock := h.lock && !classP
    unlock := h.unlock
    emerg := h.emerg
    refresh := false
    source := h.source
    order := (s.arb r).next
    result := false
    control := false
    first := false
    leg := .first
    read := false
    counted := false }

/-- Deadline `a` is nearer than `b`, compared modulo 2^20 (R270). -/
def nearer (a b : Nat) : Bool := a != b && decide ((b + 2 ^ 20 - a) % 2 ^ 20 < 2 ^ 19)

/-- A request whose deadline the reading `c` has reached is overdue. Log entry 47: DESIGN CHOICE. -/
def Req.lapse (c : Nat) (q : Req) : Req := if untilDeadline c q.deadline = 0 then { q with overdue := true } else q

/-- The deadline of a write-back: its own, or the latest of those that its arbiter has parked, so that it delays none of them
(R281). Log entry 47: DESIGN CHOICE. -/
def Arb.behind (a : Arb) (deadline : Nat) : Nat :=
  (a.pending ++ a.outside).foldl (fun d q => if nearer d q.deadline then q.deadline else d) deadline

/-- A request of a kind, as its first arbiter holds it. -/
def State.firstReq (s : State) (r : ResId) (k : Requester) (q : Req) : Req :=
  { q with
    deadline := if k = .writeBack then (s.arb r).behind q.deadline else q.deadline
    result := k == .result && (match r with
      | .bank (.acc _ _ _) => true
      | _ => false)
    control := k == .control
    first := k == .control && (match r with
      | .cwy _ => true
      | _ => false) }

/-- The request that reaches an arbiter, and the state without it where it was under way (R268, R269). One whose deadline has
passed on the way arrives overdue (R270). -/
def State.arrive (s : State) (r : ResId) : ReqEntry → Option (Req × State)
  | .first k read lock unlock source =>
    (s.entryOf k read).map (fun e =>
      let h : ReqHdr :=
        { classP := e.1, remain := e.2, overdue := false, lock := lock, unlock := unlock, emerg := k == .debug, source := source }
      ({ s.firstReq r k (s.makeReq r h none) with read := read }, s))
  | .crossed k =>
    (s.transit[k]?).map (fun x =>
      let q : Req := { s.makeReq r x.hdr x.deadline with
        control := x.control
        first := x.control && (match r with
          | .cwy _ => true
          | _ => false)
        leg := x.leg
        read := x.read }
      (if x.deadline.isSome then q.lapse (s.clock (s.resDie r)).count else q, { s with transit := dropAt s.transit k }))

/-! ### Ranks (R270) -/

/-- `a` ranks above `b` (R270); at Causeway egress a control frame ranks ahead of every data frame (Table 12-6), and at a channel
the refresh engine ahead of a debug transfer, since no refresh is postponed (R276). Log entry 47: DESIGN CHOICE. -/
def Req.outranks (a b : Req) : Bool :=
  if a.emerg != b.emerg then a.emerg
  else if a.refresh != b.refresh then a.refresh
  else if a.first != b.first then a.first
  else if a.overdue != b.overdue then a.overdue
  else if a.overdue then decide (a.order < b.order)
  else if a.deadline = b.deadline then decide (a.order < b.order)
  else nearer a.deadline b.deadline

/-- The request of a list that no other of it outranks. -/
def topOf (l : List Req) : Option Req :=
  l.foldl (fun (m : Option Req) r =>
    match m with
    | none => some r
    | some t => if r.outranks t then some r else some t) none

/-- A lock admits a request: of the source that holds it, or of the emergency requester (R274); at Causeway egress a control frame
too, which waits for the frame in progress alone (Table 12-6). -/
def Arb.admits (a : Arb) (r : Req) : Bool :=
  match a.locked with
  | none => true
  | some src => r.emerg || r.first || r.source == src

/-- The pending request that ranks highest among those that the lock admits. -/
def Arb.top (a : Arb) : Option Req := topOf (a.pending.filter (fun q => a.admits q))

/-- The pending queue without a request. -/
def Arb.unpark (a : Arb) (q : Req) : Arb := { a with pending := a.pending.filter (fun x => x.order != q.order) }

/-! ### Grants -/

/-- A request becomes the holder. A class L request with LOCK locks the resource for its source where no lock stands. The
watchdog starts, or runs on through a locked sequence of its own (R274, R278); that of a transfer or a locked sequence that this
grant interrupts goes on beside it (R276). -/
def Arb.take (a : Arb) (c : Nat) (r : Req) : Arb :=
  let own := a.locked == some r.source && a.resume.isNone
  let inner := a.resume.isSome || (a.locked.isSome && !own)
  { a with
    holder := some { r with counted := r.counted || r.overdue }
    locked := if r.lock ∧ a.locked.isNone then some r.source else a.locked
    since := if own ∧ a.since.isSome then a.since else some c
    outer := if inner then (if a.outer.isSome then a.outer else a.since) else none }

/-- The holder's grant ends, and `locked` stands. The watchdog of what the grant interrupted is the one that runs; else a lock
that stands keeps it, and without one it stops (R276, R278). -/
def Arb.freed (a : Arb) (locked : Option Nat) : Arb :=
  { a with
    holder := none
    locked := locked
    since := if a.outer.isSome then a.outer else if locked.isNone then none else a.since
    outer := none }

/-- Books of a grant: a request granted after its deadline is counted, once (R281). -/
def State.grantArb (s : State) (r : ResId) (a : Arb) (q : Req) : State :=
  (s.setArb r (a.take (s.clock (s.resDie r)).count q)).countIf (q.overdue && !q.counted) 0x1305 (s.resDie r)

/-- A class P transfer gives way: it goes back to the pending queue with its deadline, and `q` is granted (R275).
Log entry 47: DESIGN CHOICE. -/
def State.preempt (s : State) (r : ResId) (a : Arb) (h q : Req) : State :=
  (s.count1 0x1302 (s.resDie r)).grantArb r { a with pending := a.pending ++ [h] } q

/-- A class L transfer is displaced, to resume (R276). One that was displaced before it and has not resumed yet waits among the
pending requests. Log entry 47: DESIGN CHOICE. -/
def Arb.displace (a : Arb) (h : Req) : Arb :=
  { a with
    resume := some h
    pending := a.pending ++ a.resume.toList
    outer := if a.locked.isSome then a.outer else none }

/-- The decision of phase 2 (R271, R273-R276): a grant, or the request is parked. -/
def State.judge (s : State) (r : ResId) (q : Req) : State :=
  let a := s.arb r
  let top := a.admits q && !(a.pending.any (fun x => a.admits x && x.outranks q))
  let park := s.setArb r { a with pending := a.pending ++ [q] }
  match a.holder with
  | none => if top then s.grantArb r a q else park
  | some h =>
    if manyBeats r ∧ top ∧ q.emerg ∧ (!h.emerg ∨ (q.refresh ∧ !h.refresh)) then
      let s := s.count1 0x1303 (s.resDie r)
      if h.classP then s.preempt r a h q else s.grantArb r (a.displace h) q
    else if manyBeats r ∧ top ∧ h.classP ∧ q.outranks h then s.preempt r a h q
    else park

/-- The 16 entries of the pending queue are held (R272). The emergency requester needs none: it takes the resource at the next
beat (R276). -/
def Arb.full (a : Arb) : Bool := decide (16 ≤ (a.pending.filter (fun q => !q.emerg)).length)

/-- Requests that waited in phase 1 are decided, in the order they came, while an entry is free (R272). -/
def State.admitWaiting (s : State) (r : ResId) : Nat → State
  | 0 => s
  | n + 1 =>
    let a := s.arb r
    match a.outside with
    | [] => s
    | q :: rest =>
      if a.full then s
      else State.admitWaiting ((s.setArb r { a with outside := rest }).judge r q) r n

/-- A pending request is granted, and its entry freed. -/
def State.recallReq (s : State) (r : ResId) (a : Arb) (q : Req) : State :=
  (s.grantArb r (a.unpark q) q).admitWaiting r a.outside.length

/-! ### Deadlines (R270, R275) -/

/-- Every request that an arbiter holds is overdue once its deadline has passed. -/
def Arb.lapse (a : Arb) (c : Nat) : Arb :=
  { a with
    holder := a.holder.map (Req.lapse c)
    pending := a.pending.map (Req.lapse c)
    outside := a.outside.map (Req.lapse c)
    resume := a.resume.map (Req.lapse c) }

/-- The OVERDUE transitions of an arbiter at the reading of its die (R270). A class P transfer that a pending request then
outranks gives way (R275). -/
def State.lapse (s : State) (r : ResId) : State :=
  let a := (s.arb r).lapse (s.clock (s.resDie r)).count
  if a = s.arb r then s
  else match a.holder, a.top with
    | some h, some q =>
      if manyBeats r ∧ h.classP ∧ q.outranks h then
        (s.preempt r (a.unpark q) h q).admitWaiting r a.outside.length
      else s.setArb r a
    | _, _ => s.setArb r a

/-! ### Another die (R20) -/

/-- A deadline set on a die whose counter reads `c`, on one whose counter reads `d`: by what remains of it. -/
def Req.convert (c d : Nat) (q : Req) : Req :=
  { q.lapse c with deadline := (d + untilDeadline c q.deadline) % 2 ^ 20 }

/-- A reading in the past, by the time that has passed since. -/
def convertReading (c d w : Nat) : Nat := (d + 2 ^ 48 - (c + 2 ^ 48 - w % 2 ^ 48) % 2 ^ 48) % 2 ^ 48

/-- The arbiter of a resource that has moved from a die whose counter reads `c` to one whose counter reads `d`. -/
def Arb.convert (a : Arb) (c d : Nat) : Arb :=
  { a with
    holder := a.holder.map (Req.convert c d)
    pending := a.pending.map (Req.convert c d)
    outside := a.outside.map (Req.convert c d)
    resume := a.resume.map (Req.convert c d)
    results := a.results.map (Req.convert c d)
    since := a.since.map (convertReading c d)
    outer := a.outer.map (convertReading c d) }

/-- Port `n` takes the lanes of `k`. Where that brings its traffic to another die, the requests at its egress and its watchdog go
over with what remains of them: no reading of one die is compared with one of another (R20). -/
def State.movePort (s : State) (n : Nat) (k : CwyPort) : State :=
  let old := (s.cport n).die n
  let s' := s.setPort n k
  if k.die n = old ∨ s.arb (.cwy n) = Arb.reset then s'
  else s'.setArb (.cwy n) ((s.arb (.cwy n)).convert (s.clock old).count (s.clock (k.die n)).count)

/-! ### Freeing a resource -/

/-- A displaced class L transfer resumes at its next beat (R276). -/
def State.resumeReq (s : State) (r : ResId) (a : Arb) (h : Req) : State :=
  s.setArb r { a with
    holder := some h
    resume := none
    since := if a.since.isSome then a.since else some (s.clock (s.resDie r)).count }

/-- The resource has become free: array result writes come first (Table 12-6), then the emergency requester, then a class L
transfer that it displaced, then the top-ranked pending request that the lock admits (R272, R276). After a bite the top-ranked
pending request comes before the displaced transfer (R279). -/
def State.recall (s : State) (r : ResId) (a : Arb) (bitten : Bool) : State :=
  match a.results with
  | q :: rest => s.grantArb r { a with results := rest } q
  | [] =>
    match a.top, a.resume with
    | none, none => s.setArb r a
    | some q, none => s.recallReq r a q
    | none, some h => s.resumeReq r a h
    | some q, some h => if q.emerg ∨ bitten then s.recallReq r a q else s.resumeReq r a h

/-- The header that a request carries from an arbiter to the next (R268, R269): within the die with its deadline, over a
crossing with what remains of it. -/
def State.sendOn (s : State) (r : ResId) (q : Req) (leg : Leg) : State :=
  let left := untilDeadline (s.clock (s.resDie r)).count q.deadline
  let h : ReqHdr :=
    { classP := if takesClassP r then q.classP else q.headP, remain := if q.overdue then 0 else min left 65535,
      overdue := q.overdue || left == 0, lock := q.lock,
      unlock := q.unlock, emerg := q.emerg, source := q.source }
  let x : Transit :=
    { hdr := h
      read := q.read
      leg := leg
      control := q.control
      deadline := match r with
        | .xing _ _ _ => none
        | _ => some q.deadline }
  { s with transit := s.transit ++ [x] }

/-- Where a transfer's request goes on from its arbiter: from a crossing or a mesh output to the next, and from a bank or a
channel the row of a read that was sent there returns. A channel lies outside every tile, so the row of a read that had no
arbiter before it returns as well (R269). -/
def State.leave (s : State) (r : ResId) (q : Req) : State :=
  let goOn := s.sendOn r q (if q.leg = .back then .back else .onward)
  match r with
  | .xing _ _ _ => goOn
  | .mesh _ _ => goOn
  | .cwy _ => s
  | .hbm _ => if q.leg ≠ .back ∧ q.read then s.sendOn r q .back else s
  | .bank _ => if q.leg = .onward ∧ q.read then s.sendOn r q .back else s

/-! ### Stopping a launch (R246) -/

/-- Issue stops on every list of the launch, its queues are cancelled, and lists held in sync.wait end there. -/
def State.stopLaunch (s : State) (p status : Nat) : State :=
  match (s.tile p).launch with
  | none => s
  | some la =>
    if la.stopping.isSome then s
    else
      let s := s.updTile p (fun t => { t with launch := some { la with stopping := some status } })
      let s := (List.range 4).foldl (fun s l =>
        let s := s.endWaits p l stCancelled
        if ((s.tile p).list l).enabled then s.updList p l (fun w => { w with ended := true }) else s) s
      (List.range 8).foldl (fun s q => if (s.queue p q).owner.isSome then s.cancelQueue p q .stop else s) s

/-! ### Watchdogs (R277-R280) -/

/-- Who holds an arbiter: the holder of the grant, or of the lock. -/
def Arb.owner (a : Arb) : Option Nat :=
  match a.holder with
  | some h => some h.source
  | none => a.locked

/-- Reading of the interval counter at which the watchdog of an arbiter bites: ticks are the changes of counter bit 10, and a
watchdog set to T ticks bites at the change T + 1 after its start (R277, R278). -/
def State.biteAt (s : State) (r : ResId) (since : Nat) : Nat := 1024 * (since / 1024 + s.live (watchdogKey r) + 1)

/-- The watchdog of an arbiter ends the holder's grant and its lock, grants the next request, and notifies Curator with the
resource and the SOURCE of the holder (R279). A lock of another source stands, with its own watchdog (R276). -/
def State.bite (s : State) (r : ResId) (src : Nat) : State :=
  let a := s.arb r
  let locked := match a.holder with
    | some h => if a.locked = some h.source then none else a.locked
    | none => none
  ((s.recall r (a.freed locked) true).count1 0x1304 (s.resDie r)).note (.watchdog r src)

/-- The watchdog bites. A holder that is a unit of a tile whose launch runs has it stopped with END_STATUS WATCHDOG (R280).
Log entry 3: DESIGN CHOICE. -/
def State.watchdog (s : State) (r : ResId) (src : Nat) : State :=
  let s := s.bite r src
  match Config.sourceTile src with
  | none => s
  | some p => s.stopLaunch p stWatchdog

/-- The holder's SOURCE where the watchdog of an arbiter is due at the present reading of its die. -/
def State.biteDue (s : State) (r : ResId) : Option Nat :=
  let a := s.arb r
  match a.owner, a.since with
  | some src, some w => if untilReading (s.clock (s.resDie r)).count (s.biteAt r w) = 0 then some src else none
  | _, _ => none

/-- One arbiter at the present reading of its die: requests whose deadline has passed, and a watchdog whose limit has. -/
def State.settleArb (s : State) (r : ResId) : State :=
  let s := s.lapse r
  match s.biteDue r with
  | some src => s.watchdog r src
  | none => s

/-- Every arbiter at the present readings. Log entry 7: DESIGN CHOICE. -/
def State.settleArbs (s : State) : State := (s.arbs.map (fun e => e.1)).foldl (fun s r => s.settleArb r) s

/-- `n` ns pass on the interval counter of a die, with what they bring about at the arbiters (R277). -/
def State.passTime (s : State) (d n : Nat) : State := (s.pass d n).settleArbs

/-- One-shot timer `k` comes to its bound (R277): the interval counter it reads has come that far. -/
def State.expire (s : State) (k : Timer) (bound : Nat) : State := (s.ripen k bound).settleArbs

/-! ### Requests and releases -/

/-- A request reaches an arbiter at the present reading of its die (R271, R272, R277). An array's result write is never parked;
while all 16 entries are held any other but the emergency requester, and at Causeway egress a control frame, waits in phase 1
(Table 12-6). Log entry 47: DESIGN CHOICE. -/
def State.arbitrate (s : State) (r : ResId) (q : Req) : State :=
  let s := s.settleArb r
  let a : Arb := { s.arb r with next := q.order + 1 }
  if q.result then
    if a.holder.isNone then s.grantArb r a q else s.setArb r { a with results := a.results ++ [q] }
  else if a.full ∧ !q.emerg ∧ !q.first then
    (s.setArb r { a with outside := a.outside ++ [q] }).count1 0x1301 (s.resDie r)
  else (s.setArb r a).judge r q

def execArbiterRequest (r : ResId) (x : ReqEntry) (s : State) : Result :=
  .next (match s.arrive r x with
    | none => s
    | some (q, s) => s.arbitrate r q)

/-- The holder releases after its last beat; UNLOCK ends a locked sequence (R271, R274). -/
def State.release (s : State) (r : ResId) : State :=
  let a := s.arb r
  match a.holder with
  | none => s
  | some h => (s.leave r h).recall r (a.freed (if h.unlock && a.locked == some h.source then none else a.locked)) false

/-- A release after the watchdog has bitten finds the grant ended already (R278, R279). -/
def execArbiterRelease (r : ResId) (s : State) : Result :=
  .next (
    let s := s.lapse r
    match s.biteDue r with
    | some src => s.watchdog r src
    | none => s.release r)

/-- The refresh engine of a channel takes it as the emergency requester, from a debug transfer too (R276).
Log entry 47: DESIGN CHOICE. -/
def execHbmRefresh (c : Nat) (s : State) : Result :=
  let h : ReqHdr :=
    { classP := false, remain := 0, overdue := false, lock := false, unlock := false, emerg := false, source := 0 }
  .next (s.arbitrate (.hbm c) { s.makeReq (.hbm c) h none with emerg := true, refresh := true })

/-- Reference-clock loss and return of a die; Curator is notified of the loss (R277). -/
def execRefClockLoss (d : Nat) (s : State) : Result :=
  .next (if (s.clock d).lost then s
    else ((s.setClock d { s.clock d with lost := true }).count1 0x1401 d).note (.clockLoss d))

def execRefClockReturn (d : Nat) (s : State) : Result :=
  .next (s.setClock d { s.clock d with lost := false })

/-! ### The bound of a cancellation (R245) -/

/-- 8 us after its issue a cancellation abandons the reads that are still outstanding (R245): the interval counter of the
tile's die has come that far. Log entry 45: DEDUCED. -/
def execCancelTimeout (t q : Nat) (s : State) : Result :=
  .next (match s.phys t with
    | none => s
    | some p =>
      let u := s.queue p q
      match u.cancelling with
      | none => s
      | some c =>
        if u.missing = [] then s
        else
          let s := s.passTime (dieOf p) (untilReading (s.clock (dieOf p)).count (c.since + 8000))
          (((s.flushWrites p q).finishCancel p q u.late).count 0x0F04 p u.missing.length).pump p)


end Sys2Proof.Machine
end

