-- ==== Sys2Proof/Machine/Receipt.lean ====
section
/-! DEFINITION. Command packets: the opcodes with their classes and parameters (Table 13-8), the receipt responder (R295,
R297, Table 13-8a), the order in which Curator starts commands (R299), the check of parameters (R296), and results that
take rows (R298). -/

namespace Sys2Proof.Machine

/-! ### Opcodes (Table 13-8) -/

/-- A parameter: width and range. -/
structure Param where
  width : Nat
  lo    : Nat
  hi    : Nat
deriving DecidableEq, Repr

/-- A parameter that takes every value of its width. -/
def pa (w : Nat) : Param := ⟨w, 0, 2 ^ w - 1⟩

def claO : Nat := 1
def claP : Nat := 2
def claB : Nat := 4

/-- Classes (1 Operator, 2 Peer, 4 Board) and parameters of an opcode. -/
def cmdSpec : Nat → Option (Nat × List Param)
  | 0x0100 => some (7, [])
  | 0x0101 => some (5, [])
  | 0x0102 => some (5, [])
  | 0x0103 => some (5, [pa 1])
  | 0x0104 => some (5, [pa 16])
  | 0x0105 => some (5, [pa 16, pa 16])
  | 0x0106 => some (4, [pa 12])
  | 0x0200 => some (5, [pa 16])
  | 0x0201 => some (1, [pa 16, pa 64])
  | 0x0202 => some (1, [pa 32])
  | 0x0203 => some (1, [])
  | 0x0204 => some (1, [pa 6, pa 43, pa 43])
  | 0x0205 => some (1, [pa 6])
  | 0x0300 => some (1, [pa 64, pa 10, ⟨11, 1, 1024⟩, pa 16, ⟨13, 1, 4096⟩])
  | 0x0301 => some (1, [pa 10, ⟨16, 0, 0x5FFF⟩])
  | 0x0302 => some (1, [pa 64, pa 64, pa 24])
  | 0x0303 => some (1, [pa 10, ⟨11, 1, 1024⟩])
  | 0x0304 => some (1, [pa 10, ⟨11, 1, 1024⟩, pa 32])
  | 0x0400 => some (1, [pa 10, pa 4])
  | 0x0401 => some (1, [pa 10, pa 4])
  | 0x0402 => some (1, [pa 10, pa 4, pa 16])
  | 0x0403 => some (1, [pa 10, pa 4, pa 64])
  | 0x0404 => some (3, [pa 10, pa 4, ⟨16, 1, 65535⟩, pa 1, pa 10, pa 1, pa 1, pa 32])
  | 0x0500 => some (1, [pa 10, pa 3, pa 64])
  | 0x0501 => some (1, [pa 10, pa 3])
  | 0x0502 => some (1, [pa 10, pa 3, pa 16])
  | 0x0503 => some (1, [pa 10, pa 3])
  | 0x0600 => some (1, [pa 10, ⟨11, 1, 1024⟩, pa 64, pa 32])
  | 0x0601 => some (1, [pa 10, ⟨11, 1, 1024⟩, pa 64, pa 32])
  | 0x0602 => some (1, [pa 64, pa 32])
  | 0x0700 => some (1, [pa 64])
  | 0x0701 => some (1, [pa 64, pa 64])
  | 0x0800 => some (5, [pa 32, pa 16])
  | 0x0801 => some (5, [pa 16, pa 64])
  | 0x0802 => some (5, [pa 32, pa 16])
  | 0x0900 => some (5, [pa 64, pa 32])
  | 0x0901 => some (1, [pa 10])
  | 0x0902 => some (1, [pa 10])
  | 0x0903 => some (1, [pa 10])
  | 0x0904 => some (1, [pa 10])
  | 0x0905 => some (1, [pa 10, pa 16])
  | 0x0906 => some (1, [pa 64])
  | 0x0907 => some (1, [])
  | 0x0A00 => some (3, [pa 8, pa 64, pa 40])
  | 0x0A01 => some (3, [pa 8])
  | 0x0A02 => some (7, [pa 8])
  | 0x0A10 => some (3, [pa 14])
  | 0x0A11 => some (3, [pa 14, pa 32])
  | 0x0A12 => some (3, [pa 14, pa 14])
  | 0x0B00 => some (5, [⟨2, 0, 1⟩, pa 32])
  | 0x0B01 => some (5, [⟨2, 0, 1⟩, pa 32])
  | 0x0B02 => some (1, [⟨2, 0, 1⟩])
  | 0x0B03 => some (5, [⟨2, 0, 1⟩])
  | 0x0C00 => some (5, [pa 256, pa 64])
  | 0x0C01 => some (5, [pa 64])
  | 0x0D00 => some (5, [⟨4, 0, 12⟩])
  | 0x0D01 => some (1, [⟨4, 0, 7⟩, pa 1])
  | 0x0D02 => some (1, [⟨4, 0, 7⟩, pa 1])
  | 0x0D03 => some (7, [⟨4, 0, 7⟩])
  | 0x0D10 => some (3, [pa 32, pa 4, pa 14, pa 15, pa 2, pa 16])
  | 0x0D11 => some (3, [pa 32, pa 14])
  | 0x0D12 => some (3, [pa 32, pa 14])
  | _ => none

/-- Value of parameter number `i`. -/
def paramAt (ps : List Param) (h : BitVec 512) (i : Nat) : Nat :=
  hParam h ((ps.take i).foldl (fun a p => a + p.width) 0) (ps.getD i (pa 0)).width

/-- Parameter number `i` of a command. -/
def Cmd.arg (c : Cmd) (i : Nat) : Nat :=
  match cmdSpec (hOpcode c.hdr) with
  | some (_, ps) => paramAt ps c.hdr i
  | none => 0

/-- The number of the parameter TILE_COUNT, for an opcode that has one. -/
def countArg (op : Nat) : Option Nat :=
  if op = 0x0300 then some 2 else if op = 0x0303 ∨ op = 0x0304 ∨ op = 0x0600 ∨ op = 0x0601 then some 1 else none

/-- The position of the first failing field of PARAMS (R296); reserved bits lie above every field. -/
def paramFault (op : Nat) (ps : List Param) (h : BitVec 512) : Option Nat :=
  let pos (i : Nat) := (ps.take i).foldl (fun a p => a + p.width) 0
  match (List.range ps.length).find? (fun i =>
      let p := ps.getD i (pa 0)
      let v := paramAt ps h i
      decide (v < p.lo) || decide (p.hi < v) ||
        (countArg op == some i && decide (paramAt ps h (i - 1) + v > 1024))) with
  | some i => some (pos i)
  | none => if hParam h (pos ps.length) (320 - pos ps.length) ≠ 0 then some (pos ps.length) else none

/-! ### Receipt (R295) -/

/-- The class of a port: 0 Operator, 1 Peer, 2 Board, 3 Debug. -/
def Port.cls : Port → Nat
  | .arcade => 0
  | .cwy _ => 1
  | .i3c => 2
  | .jtag => 3

/-- Depth of a port's command queue (Table 13-1). -/
def Port.depth : Port → Nat
  | .arcade => 256
  | .cwy _ => 64
  | .i3c => 4
  | .jtag => 1

/-- A class may issue an opcode whose classes are the set `m`; Debug may issue every opcode (R286). -/
def clsOk (cls m : Nat) : Bool := cls == 3 || bit m cls

/-- The lowest set bit of the reserved header fields (Table 13-6). Log entry 48: DEDUCED. -/
def hdrReserved (h : BitVec 512) : Option Nat :=
  (span 35 5 ++ span 56 8 ++ span 416 64).find? (fun i => bit h.toNat i)

def isColl (op : Nat) : Bool := op == 0x0D10 || op == 0x0D11 || op == 0x0D12

/-- The commands that the strip carries out in recovery (R393). Log entry 74: DEDUCED. -/
def recoveryOp (op : Nat) (h : BitVec 512) : Bool :=
  op == 0x0101 || op == 0x0102 || op == 0x0103 ||
  ((op == 0x0B00 || op == 0x0B01 || op == 0x0B03) && hParam h 0 2 == 0)

/-- The receipt checks in order: status 0, or the status and DETAIL of the refusal. `digest` is the peer's.
Log entry 48: DEDUCED. -/
def State.receiptStatus (s : State) (port : Port) (h : BitVec 512) (payload : Bytes) (digest : Nat) : Nat × Nat :=
  let op := hOpcode h
  if !crcOk64 h.toNat then (stBadCrc, 0)
  else if hPayloadLen h > 4096 ∨ payload.length ≠ hPayloadLen h then (stBadParam, 0)
  else if fld h.toNat 384 32 ≠ (if payload.length = 0 then 0 else crc32cBytes payload) then (stBadCrc, 1)
  else match cmdSpec op with
    | none => (stBadOpcode, 0)
    | some (m, _) =>
      if !clsOk port.cls m then (stNotPermitted, port.cls)
      else match hdrReserved h with
        | some i => (stBadParam, i)
        | none =>
          let refuse : Option Nat := match port with
            | .cwy p => if (s.cport p).quarantine ∧ isColl op ∧ digest ≠ s.digest128 then some p else none
            | _ => none
          match refuse with
          | some p => (stDigest, p)
          | none =>
            if (s.cur.cmds.filter (fun c => c.port == port && c.st == .queued)).length ≥ port.depth then (stNoResource, 0)
            else if s.boot.phase = 6 ∧ !(port == .i3c && recoveryOp op h) then (stNoResource, 5)
            else if s.boot.phase < 5 then (stNoResource, s.boot.phase)
            else (stOk, 0)

/-- A command passes or fails receipt. A refusal is its final reply; otherwise it is queued and draws ACCEPTED, unless
NO_ACCEPT is honoured (Table 13-6). Log entry 48: DEDUCED. -/
def State.receive (s : State) (port : Port) (house seq : Nat) (h : BitVec 512) (payload : Bytes) (digest : Nat) : State :=
  let (status, detail) := s.receiptStatus port h payload digest
  let s := s.openStore port house seq
  if status ≠ stOk then
    let s := s.count1 0x1601 0
    let s := s.countIf (status == stNotPermitted) 0x1602 0
    s.sendReply port house seq .receipt (mkReply h status detail false [])
  else
    let c : Cmd := { n := s.cur.next, port := port, house := house, seq := seq, hdr := h, payload := payload, st := .queued,
                     wait := .none }
    let s := { s with cur := { s.cur.edit (fun l => l ++ [c]) with next := s.cur.next + 1 } }
    if hNoAccept h ∧ (port == .arcade || port == .i3c) then s
    else s.sendReply port house seq .receipt (mkReply h stAccepted 0 true [])

/-- Receipt takes commands from the end of phase 1, and outside a trip or a loss of power (R379, R381). -/
def State.listening (s : State) : Bool := decide (2 ≤ s.boot.phase)

/-- The contacts of the service strip work (R383). -/
def State.stripUp (s : State) : Bool := s.boot.strip.isSome && !s.boot.stripFailed

def execArcadeCmd (h : BitVec 512) (payload : Bytes) (s : State) : Result :=
  .next (if s.listening ∧ s.arc.linkUp then s.receive .arcade 0 0 h payload 0 else s)

def execI3cPrivateWrite (h : BitVec 512) (payload : Bytes) (s : State) : Result :=
  .next (if s.listening ∧ s.stripUp then s.receive .i3c 0 0 h payload 0 else s)

/-- With the debug fuse intact the port accepts no command (R286). -/
def execJtagCommand (h : BitVec 512) (payload : Bytes) (s : State) : Result :=
  .next (if s.fuses.debug ∧ s.listening ∧ s.stripUp then s.receive .jtag 0 0 h payload 0 else s)

/-! ### Execution order (R299) -/

/-- An object of R299: a kind and a range of numbers. Kinds: 0 launch of a tile, 1 stream queue, 2 window, 3 group arrays,
4 configuration, 5 random service, 6 Inventory, 7 update staging, 8 link port. -/
structure Obj where
  kind  : Nat
  first : Nat
  count : Nat
deriving DecidableEq, Repr

def Obj.meets (a b : Obj) : Bool :=
  a.kind == b.kind && decide (a.first < b.first + b.count) && decide (b.first < a.first + a.count)

/-- The objects that a command names. -/
def Cmd.objects (c : Cmd) : List Obj :=
  let op := hOpcode c.hdr
  let range (i : Nat) : List Obj := [⟨0, c.arg i, c.arg (i + 1)⟩]
  match op with
  | 0x0300 => range 1
  | 0x0301 => [⟨0, c.arg 0, 1⟩]
  | 0x0303 => range 0
  | 0x0304 => range 0
  | 0x0400 => [⟨2, 16 * c.arg 0 + c.arg 1, 1⟩]
  | 0x0401 => [⟨2, 16 * c.arg 0 + c.arg 1, 1⟩]
  | 0x0402 => [⟨2, 16 * c.arg 0 + c.arg 1, 1⟩]
  | 0x0403 => [⟨2, 16 * c.arg 0 + c.arg 1, 1⟩]
  | 0x0500 => [⟨1, 8 * c.arg 0 + c.arg 1, 1⟩]
  | 0x0501 => [⟨1, 8 * c.arg 0 + c.arg 1, 1⟩]
  | 0x0502 => [⟨1, 8 * c.arg 0 + c.arg 1, 1⟩]
  | 0x0503 => [⟨1, 8 * c.arg 0 + c.arg 1, 1⟩]
  | 0x0B02 => [⟨7, 0, 1⟩, ⟨4, 0, 1⟩]
  | _ =>
    if op = 0x0600 ∨ op = 0x0601 then
      [⟨0, c.arg 0, c.arg 1⟩, ⟨1, 8 * c.arg 0, 8 * c.arg 1⟩, ⟨2, 16 * c.arg 0, 16 * c.arg 1⟩,
       ⟨3, 4 * c.arg 0, 4 * c.arg 1⟩]
    else if op / 256 = 2 then [⟨4, 0, 1⟩]
    else if op / 256 = 7 then [⟨5, 0, 1⟩]
    else if op / 256 = 9 then [⟨6, 0, 1⟩]
    else if op / 256 = 0x0B then [⟨7, 0, 1⟩]
    else if 0x0D00 ≤ op ∧ op ≤ 0x0D03 then [⟨8, c.arg 0, 1⟩]
    else []

def Cmd.clash (a b : Cmd) : Bool := a.objects.any (fun x => b.objects.any (fun y => x.meets y))

/-- A started command counts as running, but for a launch whose records are delivered and a win.credit that has had its
first grant (R299, R301). -/
def Cmd.running (c : Cmd) : Bool :=
  c.st == .started && (match c.wait with
    | .launch _ _ => false
    | .credit => false
    | _ => true)

/-- A queued command waits: for one of the 16 places, for its port's earlier commands if ORDERED, or for an object. -/
def Curator.blocked (k : Curator) (c : Cmd) : Bool :=
  decide ((k.cmds.filter Cmd.running).length ≥ 16) ||
  (hOrdered c.hdr && k.cmds.any (fun d => d.port == c.port && decide (d.n < c.n))) ||
  k.cmds.any (fun d => d.running && d.clash c)

/-- `d` comes before `c` in the order of starting: urgent commands first, then acceptance order. -/
def Cmd.ahead (d c : Cmd) : Bool :=
  if hUrgent d.hdr = hUrgent c.hdr then decide (d.n < c.n) else hUrgent d.hdr

/-- Curator may start this command now. -/
def State.canStart (s : State) (c : Cmd) : Bool :=
  c.st == .queued && (s.cur.ready || s.boot.phase == 6) && !s.cur.handover && !s.cur.blocked c &&
  s.cur.cmds.all (fun d => !(d.st == .queued && d.ahead c) || (s.cur.blocked d && !d.clash c))

/-- Curator starts command `n`, if its opcode is `op` and it may start: the check of its parameters, then its meaning.
Log entry 1: DESIGN CHOICE; log entry 11: DESIGN CHOICE. -/
def State.run (s : State) (n op : Nat) (f : Cmd → State → State) : State :=
  match s.cmd n with
  | none => s
  | some c =>
    match cmdSpec op with
    | none => s
    | some (_, ps) =>
      if hOpcode c.hdr = op ∧ s.canStart c then
        match paramFault op ps c.hdr with
        | some d => s.final n stBadParam d []
        | none => f c s
      else s

/-- A refusal whose DETAIL is 0. -/
def State.refuse (s : State) (n status : Nat) : State := s.final n status 0 []

/-- A logical tile that a command may name: presented and not drained (Table 13-8, R350). -/
def State.namedTile (s : State) (t : Nat) : Option Nat :=
  match s.phys t with
  | none => none
  | some p => if s.drained p then none else some p

/-- Runs `f` on the tile a command names, or refuses with NO_RESOURCE. -/
def State.onTile (s : State) (n t : Nat) (f : Nat → State) : State :=
  match s.namedTile t with
  | none => s.refuse n stNoResource
  | some p => f p

/-! ### Results in rows (R298) -/

/-- Where the result of a command goes: status 0 when `rows` rows fit there. Log entry 49: DEDUCED. -/
def State.resultStatus (s : State) (c : Cmd) (addr rows : Nat) : Nat :=
  if c.port = .i3c ∧ addr = 0 then (if rows > 8 then stLength else stOk)
  else match decodeAddr addr with
    | none => stBadParam
    | some pl =>
      if pl.tier > 2 ∨ s.room pl = 0 then stBadParam
      else if rows > s.room pl then stLength
      else stOk

/-- Writes rows into the result buffer of the I3C port. -/
def bufWrite (buf : Sparse Row) (i : Nat) : List Row → Sparse Row
  | [] => buf
  | x :: xs => bufWrite (Sparse.set 0 buf i x) (i + 1) xs

def State.putResult (s : State) (c : Cmd) (addr : Nat) (rows : List Row) : State :=
  if c.port = .i3c ∧ addr = 0 then { s with cur := { s.cur with buf := bufWrite s.cur.buf 0 rows } }
  else match decodeAddr addr with
    | some pl => s.writeResult pl rows
    | none => s

/-- Writes a result and answers OK, or refuses. -/
def State.answerRows (s : State) (c : Cmd) (addr : Nat) (rows : List Row) (r : List Nat) : State :=
  let st := s.resultStatus c addr rows.length
  if st ≠ stOk then s.refuse c.n st else (s.putResult c addr rows).finalOk c.n r

end Sys2Proof.Machine
end

