-- ==== Sys2Proof/Machine/Settings.lean ====
section
/-! DEFINITION. The settings: keys and their ranges (Table 16-8, R396), the live configuration and a new configuration
generation (R326, R377, R397), and the provenance digest (R399). -/

namespace Sys2Proof.Machine

/-- A key of Table 16-8. -/
def keyKnown (k : Nat) : Bool :=
  (decide (1 ≤ k) && decide (k ≤ 3)) || (decide (0x10 ≤ k) && decide (k ≤ 0x12)) ||
  (decide (0x20 ≤ k) && decide (k ≤ 0x25)) || (decide (0x30 ≤ k) && decide (k ≤ 0x33)) || k == 0x40 || k == 0x41 ||
  (decide (0x50 ≤ k) && decide (k ≤ 0x6F)) || (decide (0x100 ≤ k) && decide (k ≤ 0x13F)) ||
  (decide (0x2000 ≤ k) && decide (k ≤ 0x3FFF)) || (decide (0x4000 ≤ k) && decide (k ≤ 0x43FF))

/-- A row-aligned address in tier 0x0 or 0x1. -/
def lowTier (a : Nat) : Bool :=
  match decodeAddr a with
  | some pl => decide (pl.tier ≤ 1)
  | none => false

/-- 128 KiB lie backed beyond an address. Before phase 4 ends no expander has trained, so tier 0x1 is not judged.
Log entry 69: DEDUCED. -/
def State.tableBacked (s : State) (v : Nat) : Bool :=
  match decodeAddr v with
  | some pl => decide (256 ≤ s.room pl) || (pl.tier == 1 && s.boot.phase != 5)
  | none => false

/-- The value lies in the key's range. `s` says what is backed beyond SEQ_TABLE_ADDR. Log entry 69: DEDUCED. -/
def State.keyValueOk (s : State) (k v : Nat) : Bool :=
  if k = keyHouse then v < 2 ^ 14
  else if k = keySeqTable then lowTier v && s.tableBacked v
  else if k = keyPowerCap then 2000 ≤ v && v ≤ 12000
  else if k = keyRamp then 16 ≤ v && v ≤ 64 && v % 8 == 0
  else if k = keySpRetire then 2 ≤ v && v ≤ 15
  else if k = keyHbmReloc then 1 ≤ v && v ≤ 255
  else if 0x20 ≤ k ∧ k ≤ 0x25 then 1 ≤ v && v ≤ 255
  else if k = keyCwyMode ∨ k = keyQuarantine then v < 256
  else if k = keyEtherType then 0x0600 ≤ v && v ≤ 0xFFFF
  else if k = keySpareBer ∨ k = keyCollTimeout then 1 ≤ v && v ≤ 65535
  else if k = keyCastGroup then v ≤ 63 || v == 0xFF
  else if 0x50 ≤ k ∧ k ≤ 0x6F then (if k % 2 = 0 then lowTier v else decide (v < 2 ^ 40))
  else if 0x100 ≤ k ∧ k ≤ 0x13F then
    fld v 15 17 == 0 && fld v 47 17 == 0 && decide (fld v 0 15 ≤ 16384) && decide (fld v 32 15 + fld v 0 15 ≤ 32768)
  else if 0x2000 ≤ k ∧ k ≤ 0x3FFF then fld v 14 2 == 0 && fld v 30 2 == 0 && fld v 46 2 == 0 && fld v 62 2 == 0
  else true

/-- The keys that enter the provenance digest, ascending. -/
def digestKeys : List Nat :=
  [0x10, 0x11, 0x12] ++ span 0x20 6 ++ [0x40, 0x41] ++ span 0x50 32 ++ span 0x100 64 ++ span 0x2000 8192

def algVersion : Nat := 1

/-- Version of the running Curator; without one the value is free. -/
def State.curatorVersion (s : State) : Nat :=
  match s.boot.image with
  | some i => i.version
  | none => Config.unstated 0

/-- The message of R399. -/
def digestMsg (version : Nat) (live : Sparse Nat) : Bytes :=
  [0x50, 0x4F, 0x4C, 0x52, 0x49, 0x4E, 0x2E, 0x50, 0x52, 0x4F, 0x56, 0x2E, 0x44, 0x47, 0x2E, 0x31] ++
  bytesOfNat 4 version ++ bytesOfNat 1 algVersion ++ [0x01] ++ List.replicate 10 0 ++
  digestKeys.flatMap (fun k => bytesOfNat 8 k ++ bytesOfNat 8 (liveGet live k))

/-- Recomputes the provenance digest. -/
def State.refreshDigest (s : State) : State :=
  { s with set := { s.set with digest := sha384Num (digestMsg s.curatorVersion s.set.live) } }

/-- Routing entry of house `h` in the settings (R326, Table 16-8). -/
def routeEntry (live : Sparse Nat) (h : Nat) : Nat := fld (liveGet live (keyRoute + h / 16)) (4 * (h % 16)) 4

/-- The live routing table copied from the settings. -/
def routesOf (live : Sparse Nat) : Sparse Nat :=
  (live.filter (fun e => decide (keyRoute ≤ e.1) && decide (e.1 < keyRoute + 1024))).flatMap (fun e =>
    ((List.range 16).map (fun i => (16 * (e.1 - keyRoute) + i, fld (e.2 - 1) (4 * i) 4))).filter (fun x => x.2 != 0))

/-- The settings take effect: the live routing table, the house number, the live cap and the digest follow. -/
def State.setLive (s : State) (live : Sparse Nat) (gen : Nat) : State :=
  ({ s with
     set := { s.set with live := live, staged := [], gen := gen, routes := routesOf live, house := liveGet live keyHouse },
     power := { s.power with liveCap := liveGet live keyPowerCap } }).refreshDigest

/-- A new configuration generation with these values (R377). -/
def State.newGeneration (s : State) (live : Sparse Nat) : State := s.setLive live ((s.set.gen + 1) % 2 ^ 32)

/-- The values staged by cfg.write, applied to the live ones. -/
def applyStaged (live : Sparse Nat) : Sparse (Option Nat) → Sparse Nat
  | [] => live
  | (k, some v) :: l => applyStaged (liveSet live k v) l
  | (_, none) :: l => applyStaged live l

def lo32 (x : Nat) : Nat := x % 2 ^ 32
def hi32 (x : Nat) : Nat := x / 2 ^ 32 % 2 ^ 32

/-- cfg.read: live and staged value. Nothing staged leaves the staged value free. -/
def execCfgRead (n : Nat) (s : State) : Result :=
  .next (s.run n 0x0200 (fun c s =>
    let k := c.arg 0
    if !keyKnown k then s.final n stBadParam 0 []
    else
      let v := s.live k
      match Sparse.get none s.set.staged k with
      | some x => s.finalOk n [lo32 v, hi32 v, lo32 x, hi32 x]
      | none =>
        let (s, d) := s.draw
        let x := Config.unstated d
        s.finalOk n [lo32 v, hi32 v, lo32 x, hi32 x]))

def execCfgWrite (n : Nat) (s : State) : Result :=
  .next (s.run n 0x0201 (fun c s =>
    if !keyKnown (c.arg 0) then s.final n stBadParam 0 []
    else if !s.keyValueOk (c.arg 0) (c.arg 1) then s.final n stBadParam 16 []
    else
      ({ s with set := { s.set with staged := Sparse.set none s.set.staged (c.arg 0) (some (c.arg 1)) } }).finalOk n []))

/-- RESULT words of a new generation: CFG_GEN and the first 64 bits of the digest. -/
def State.genResult (s : State) : List Nat := [s.set.gen, lo32 s.set.digest.toNat, hi32 s.set.digest.toNat]

def execCfgCommit (n : Nat) (s : State) : Result :=
  .next (s.run n 0x0202 (fun c s =>
    if c.arg 0 ≠ s.set.gen then s.refuse n stStale
    else if s.anyLaunch then s.refuse n stConflict
    else
      let s := s.newGeneration (applyStaged s.set.live s.set.staged)
      s.finalOk n s.genResult))

def execCfgDiscard (n : Nat) (s : State) : Result :=
  .next (s.run n 0x0203 (fun _ s => ({ s with set := { s.set with staged := [] } }).finalOk n []))

/-- cfg.aperture_add (R291). -/
def execCfgApertureAdd (n : Nat) (s : State) : Result :=
  .next (s.run n 0x0204 (fun c s =>
    let a := c.arg 0
    let base := c.arg 1
    let rows := c.arg 2
    if rows = 0 ∨ base + rows > 2 ^ 43 then s.final n stBadParam 49 []
    else if s.mem.apertures.any (fun e => e.num == a || extentsMeet base rows 1 e.base e.rows 1) then s.refuse n stConflict
    else
      let e : Aperture := { num := a, base := base, rows := rows }
      ({ s with mem := { s.mem with apertures := s.mem.apertures ++ [e] } }).finalOk n []))

/-- Transfers already issued to an aperture: reads not returned and writes not complete. -/
def State.apertureBusy (s : State) (e : Aperture) : Bool :=
  let inside : Option Place → Bool := fun pl =>
    match pl with
    | some (.comp r) => inSpan e.base e.rows r
    | _ => false
  s.tiles.any (fun t => t.2.queues.any (fun q => q.2.started.any (fun st =>
    st.missing.any (fun i => inside (st.srcPlace i)) || st.out.any (fun o => inside (decodeAddr o.1)))))

/-- cfg.aperture_del: the rows are unbacked at once; the final reply waits for the transfers already issued (R291). -/
def execCfgApertureDel (n : Nat) (s : State) : Result :=
  .next (s.run n 0x0205 (fun c s =>
    match s.mem.apertures.find? (fun e => e.num == c.arg 0) with
    | none => s.finalOk n [0]
    | some e =>
      let s := { s with mem := { s.mem with apertures := s.mem.apertures.filter (fun x => x.num != e.num) } }
      if s.apertureBusy e then
        ({ s with mem := { s.mem with leaving := s.mem.leaving ++ [(e, n)] } }).await n (.aperture e.num)
      else s.finalOk n [1]))

/-- Every transfer issued to a deleted aperture has completed. -/
def execApertureDrained (a : Nat) (s : State) : Result :=
  .next (match s.mem.leaving.find? (fun e => e.1.num == a && !s.apertureBusy e.1) with
    | none => s
    | some e =>
      ({ s with mem := { s.mem with leaving := s.mem.leaving.filter (fun x => x != e) } }).finalOk e.2 [1])

end Sys2Proof.Machine
end

