-- ==== Sys2Proof/Machine/Commands.lean ====
section
/-! DEFINITION. The commands of Curator that act on tiles, windows, queues and the random service (Table 13-8, R300-R303),
and sys.nop, sys.info, sys.status, sys.buf_read. -/

namespace Sys2Proof.Machine

/-! ### sys -/

/-- Presented tiles less the vacant ones (R350). -/
def State.presented (s : State) : Nat := (s.inv.tiles.filter (fun e => e.2.role == roPresented)).length

def execSysNop (n : Nat) (s : State) : Result := .next (s.run n 0x0100 (fun _ s => s.finalOk n [s.set.gen]))

def execSysInfo (n : Nat) (s : State) : Result :=
  .next (s.run n 0x0101 (fun _ s =>
    s.finalOk n [s.house + 0xB0 * 65536, s.curatorVersion % 2 ^ 32, s.set.gen, s.presented]))

/-- sys.status; in recovery no Curator is active and RESULT0 is free. -/
def execSysStatus (n : Nat) (s : State) : Result :=
  .next (s.run n 0x0102 (fun _ s =>
    let running := (s.tiles.filter (fun e => e.2.launch.isSome)).length
    let queued := (s.cur.cmds.filter (fun c => c.st == .queued && c.n != n)).length
    let active := match s.cur.active with
      | some p => p
      | none => Config.unstated 1
    s.finalOk n [active, s.cur.standby.getD 0xFFFFFFFF, running, queued]))

def execSysBufRead (n : Nat) (s : State) : Result :=
  .next (s.run n 0x0106 (fun c s =>
    let off := c.arg 0
    if off % 16 ≠ 0 then s.final n stBadParam 0 []
    else
      let x := (Sparse.get 0 s.cur.buf (off / 512)).toNat
      s.finalOk n (tabulate 4 (fun i => fld x (8 * (off % 512) + 32 * i) 32))))

/-! ### prog -/

/-- Status of a tile named for loading: vacant, drained or draining tiles give NO_RESOURCE (R342, R350). -/
def State.loadable (s : State) (t : Nat) : Option Nat :=
  match s.phys t with
  | some p => if (s.ent p).state = tsInService then some p else none
  | none => none

/-- Copies rows from one place to another, one at a time. -/
def State.copyRows (s : State) (src dst : Place) : Nat → State
  | 0 => s
  | n + 1 =>
    let (s, x) := s.readPlace src
    State.copyRows (s.writePlace dst x) (src.plus 1) (dst.plus 1) n

/-- prog.load on the tiles from `t` on: rows are copied and checked tile by tile, until a fault: (status, bundle, tile). -/
def State.loadTiles (s : State) (src : Place) (base rows : Nat) : List Nat → State × Option (Nat × Nat × Nat)
  | [] => (s, none)
  | t :: ts =>
    let s := s.copyRows src (.scr t base) rows
    match s.phys t with
    | none => State.loadTiles s src base rows ts
    | some p =>
      match s.checkRows p false base rows with
      | (s, some (st, b)) => (s, some (st, b, t))
      | (s, none) => State.loadTiles s src base rows ts

/-- Log entry 50: DEDUCED. -/
def execProgLoad (n : Nat) (s : State) : Result :=
  .next (s.run n 0x0300 (fun c s =>
    let tiles := span (c.arg 1) (c.arg 2)
    let base := c.arg 3
    let rows := c.arg 4
    match s.srcPlace? (c.arg 0) with
    | none => s.refuse n stBadParam
    | some src =>
      if base > 0x5FFF then s.final n stBadParam 85 []
      else if rows > s.room src ∨ base + rows > 0x6000 then s.refuse n stLength
      else if tiles.any (fun t => (s.loadable t).isNone) then s.refuse n stNoResource
      else if tiles.any (fun t => match s.phys t with
          | some p => s.running p
          | none => false) then s.refuse n stConflict
      else
        match s.loadTiles src base rows tiles with
        | (s, none) => s.finalOk n []
        | (s, some (st, b, t)) => s.final n st b [t]))

def execProgPut (n : Nat) (s : State) : Result :=
  .next (s.run n 0x0301 (fun c s =>
    let len := c.payload.length
    let r := c.arg 1
    if len < 512 ∨ len % 512 ≠ 0 then s.refuse n stBadParam
    else if r + len / 512 > 0x6000 then s.refuse n stLength
    else match s.loadable (c.arg 0) with
      | none => s.refuse n stNoResource
      | some p =>
        if s.running p then s.refuse n stConflict
        else (writeRows s p r (rowsOfNat (len / 512) (natOfBytes c.payload))).finalOk n []))

/-- Log entry 50: DEDUCED. -/
def execProgCopy (n : Nat) (s : State) : Result :=
  .next (s.run n 0x0302 (fun c s =>
    let rows := c.arg 2
    let place (a : Nat) : Option Place := match decodeAddr a with
      | some pl => if pl.tier = 4 ∨ (rows ≠ 0 ∧ s.room pl = 0) then none else some pl
      | none => none
    match place (c.arg 0), place (c.arg 1) with
    | some a, some b =>
      if rows > 0 ∧ (rows > s.room a ∨ rows > s.room b) then s.refuse n stLength
      else if placesMeet a rows 1 b rows 1 then s.refuse n stConflict
      else if (match b with
          | .scr t _ => (match s.phys t with
            | some p => s.running p
            | none => false)
          | _ => false) then s.refuse n stConflict
      else (s.copyRows a b rows).finalOk n [rows]
    | none, _ => s.refuse n stBadParam
    | _, none => s.final n stBadParam (if fld (c.arg 1) 60 4 = 4 then 64 else 0) []))

/-- The launch record (Table 08-11) checked on a tile: status and DETAIL of the fault, or none (R186). -/
def State.recordFault (s : State) (p x : Nat) : Option (Nat × Nat) :=
  let base := fld x 0 16
  let rows := fld x 16 16
  let en := fld x 96 4
  let compat := bit x 100
  let comp := fld x 104 16
  let crows := fld x 120 16
  if !crcOk64 x then some (stBadCrc, 0)
  else if fld x 101 3 ≠ 0 ∨ fld x 168 312 ≠ 0 ∨ en = 0 ∨ rows = 0 ∨ rows > 4096 ∨ (compat ∧ rows > 2048) ∨
      crows < 2 ∨ (List.range 4).any (fun l => bit en l && decide (fld x (32 + 16 * l) 16 ≥ progBundles compat rows)) ∨
      base + rows > 0x6000 ∨ comp + crows > 0x6000 then some (stBadParam, 0)
  else if extentsMeet base rows 1 comp crows 1 ∨ s.running p then some (stConflict, 0)
  else none

/-- The record, and then the program it names, checked on a tile (R168, R186). -/
def State.checkLaunch (s : State) (p x : Nat) : State × Option (Nat × Nat) :=
  match s.recordFault p x with
  | some e => (s, some e)
  | none =>
    let (s, e) := s.checkRows p (bit x 100) (fld x 0 16) (fld x 16 16)
    (s, e.map (fun e => (e.1, e.2 % 65536)))

/-- A launch begins on a tile: signals, scalar registers and draw cursors are cleared (R169, R178, R264). The current list is list
0, so the lowest enabled list that can issue is the first to do so; R187 does not name it.
Log entry 8: DESIGN CHOICE; log entry 15: DESIGN CHOICE. -/
def State.startLaunch (s : State) (p x cmd : Nat) : State :=
  let la : Launch :=
    { progBase := fld x 0 16, progRows := fld x 16 16, compat := bit x 100, compRow := fld x 104 16,
      compRows := fld x 120 16, launchId := fld x 136 32, entries := 0, lost := 0, rejects := 0, first := none,
      stopping := none, cmd := cmd }
  let lists : Sparse WorkList := (List.range 4).foldl (fun m l =>
    if bit (fld x 96 4) l then
      Sparse.set WorkList.reset m l { WorkList.reset with enabled := true, pc := fld x (32 + 16 * l) 16 }
    else m) []
  s.updTile p (fun t => { t with launch := some la, lists := lists, signals := [], cursors := [], current := 0 })

/-- The first tile that refuses the record: (status, DETAIL, tile). -/
def State.launchFault (s : State) (x : Nat) : List Nat → State × Option (Nat × Nat × Nat)
  | [] => (s, none)
  | t :: ts =>
    match s.loadable t with
    | none => (s, some (stNoResource, 0, t))
    | some p =>
      match s.checkLaunch p x with
      | (s, some (st, d)) => (s, some (st, d, t))
      | (s, none) => State.launchFault s x ts

/-- prog.launch: all tiles start or none (R301). Log entry 8: DESIGN CHOICE; log entry 50: DEDUCED. -/
def execProgLaunch (n : Nat) (s : State) : Result :=
  .next (s.run n 0x0303 (fun c s =>
    let tiles := span (c.arg 0) (c.arg 1)
    let x := natOfBytes c.payload
    if c.payload.length ≠ 64 then s.refuse n stBadParam
    else match s.launchFault x tiles with
      | (s, some (st, d, t)) => s.final n st d [0, t]
      | (s, none) =>
        (tiles.foldl (fun s t =>
          match s.phys t with
          | some p => s.startLaunch p x n
          | none => s) s).await n (.launch tiles [])))

/-- prog.cancel (R246). -/
def execProgCancel (n : Nat) (s : State) : Result :=
  .next (s.run n 0x0304 (fun c s =>
    let tiles := span (c.arg 0) (c.arg 1)
    if tiles.any (fun t => (s.namedTile t).isNone) then s.refuse n stNoResource
    else
      let hit := (tiles.filterMap s.namedTile).filter (fun p =>
        match (s.tile p).launch with
        | some la => la.launchId == c.arg 2 && la.stopping.isNone
        | none => false)
      (hit.foldl (fun s p => s.stopLaunch p stCancelled) s).finalOk n [hit.length]))

/-! ### win -/

def execWinOpen (n : Nat) (s : State) : Result :=
  .next (s.run n 0x0400 (fun c s =>
    s.onTile n (c.arg 0) (fun p =>
      if c.payload.length ≠ 32 then s.refuse n stBadParam
      else
        let (s, st) := s.openWindow p (c.arg 1) (natOfBytes c.payload)
        s.final n st 0 [])))

def execWinClose (n : Nat) (s : State) : Result :=
  .next (s.run n 0x0401 (fun c s => s.onTile n (c.arg 0) (fun p => (s.closeWindow p (c.arg 1)).finalOk n [])))

def execWinReturn (n : Nat) (s : State) : Result :=
  .next (s.run n 0x0402 (fun c s => s.onTile n (c.arg 0) (fun p => (s.returnCredits p (c.arg 1) (c.arg 2)).finalOk n [])))

def execWinRead (n : Nat) (s : State) : Result :=
  .next (s.run n 0x0403 (fun c s =>
    s.onTile n (c.arg 0) (fun p => s.answerRows c (c.arg 2) [row (s.win p (c.arg 1)).bits] [])))

/-- The source of a win.credit: source word, SENT that counts, and whether it lies on another device; or the position of
the PARAMS field that the command's class does not allow (R302). -/
def State.creditSource (s : State) (c : Cmd) : Except Nat (Nat × Nat × Bool) :=
  let tile := c.arg 4
  let comp := c.arg 5
  if c.arg 6 = 1 ∧ c.arg 0 ≠ 0 then .error 0
  else match c.port with
    | .cwy _ => if comp ≠ 0 then .error 41 else .ok (srcWord tile c.house, c.arg 7, true)
    | .jtag =>
      if comp = 0 then .ok (srcWord tile s.house, 0, false)
      else if tile ≠ 0 then .error 31 else .ok (srcCompanion, 0, false)
    | _ => if tile ≠ 0 then .error 31 else if comp ≠ 0 then .error 41 else .ok (srcCompanion, 0, false)

def execWinCredit (n : Nat) (s : State) : Result :=
  .next (s.run n 0x0404 (fun c s =>
    match s.creditSource c with
    | .error d => s.final n stBadParam d []
    | .ok (src, sent, remote) =>
      match s.owner (c.arg 0) (c.arg 6 == 1) with
      | none => (s.countIf (c.arg 6 == 0) 0x0E09 0).refuse n stNoResource
      | some p =>
        if c.arg 6 = 0 ∧ s.drained p then s.refuse n stNoResource
        else s.askCredits p (c.arg 1) src (c.arg 2) (c.arg 3 == 1) (.cmd n) sent remote))

/-! ### stream -/

def execStreamQread (n : Nat) (s : State) : Result :=
  .next (s.run n 0x0500 (fun c s =>
    s.onTile n (c.arg 0) (fun p => s.answerRows c (c.arg 2) [row (s.queueBits p (c.arg 1))] [])))

def execStreamQwrite (n : Nat) (s : State) : Result :=
  .next (s.run n 0x0501 (fun c s =>
    s.onTile n (c.arg 0) (fun p =>
      let x := natOfBytes c.payload
      if c.payload.length ≠ 32 then s.refuse n stBadParam
      else
        let st := s.queueWriteStatus p (c.arg 1) x
        if st ≠ stOk then s.refuse n st else (s.updQueue p (c.arg 1) (fun u => u.write x)).finalOk n [])))

/-- The queue belongs to a work list of a running launch (R188, R300). -/
def Queue.owned (u : Queue) : Bool := u.owner.isSome

def execStreamGo (n : Nat) (s : State) : Result :=
  .next (s.run n 0x0502 (fun c s =>
    s.onTile n (c.arg 0) (fun p =>
      let u := s.queue p (c.arg 1)
      if u.owned then s.refuse n stConflict
      else if u.ringSlots = 0 then s.refuse n stBadParam
      else if u.cancelling.isSome then
        (s.updQueue p (c.arg 1) (fun u => { u with behind := u.behind ++ [.goCmd n (c.arg 2)] })).await n
          (.strGo (c.arg 0) (c.arg 1))
      else
        let (s, st) := s.releaseSlots p (c.arg 1) (c.arg 2) none
        s.final n st 0 [])))

def execStreamCancel (n : Nat) (s : State) : Result :=
  .next (s.run n 0x0503 (fun c s =>
    s.onTile n (c.arg 0) (fun p =>
      let u := s.queue p (c.arg 1)
      if u.owned then s.refuse n stConflict
      else if u.ringSlots = 0 then s.refuse n stBadParam
      else if u.idle then (s.cancelIdle p (c.arg 1)).finalOk n [0, 0]
      else (s.cancelQueue p (c.arg 1) (.cmd n)).await n (.strCancel (c.arg 0) (c.arg 1)))))

/-! ### rng (R254, R255) -/

/-- KEY_CHECK: bytes 3:0 of the block at counter 0. -/
def keyCheck (key : BitVec 256) : Nat := chacha8 key 0 % 2 ^ 32

/-- The random-service state (Table 11-2). -/
def Rng.bits (r : Rng) : Nat :=
  pack [(0, 64, r.seed.toNat), (64, 64, r.salt.toNat), (128, 8, algVersion), (144, 16, r.keyGen), (160, 32, keyCheck r.key)]

def execRngRead (n : Nat) (s : State) : Result :=
  .next (s.run n 0x0700 (fun c s => s.answerRows c (c.arg 0) [row s.rng.bits] []))

/-- A key change: a new key, and every lane-slot buffer invalidated (R255). -/
def State.changeKey (s : State) (seed salt : Word) : State :=
  { s with
    rng := { seed := seed, salt := salt, keyGen := (s.rng.keyGen + 1) % 65536, key := deriveKey seed salt },
    tiles := Sparse.mapVals Tile.reset s.tiles (fun t => { t with rngTag := [], rngNext := [] }) }

def execRngWrite (n : Nat) (s : State) : Result :=
  .next (s.run n 0x0701 (fun c s =>
    if s.anyLaunch then s.refuse n stConflict
    else
      let s := s.changeKey (BitVec.ofNat 64 (c.arg 0)) (BitVec.ofNat 64 (c.arg 1))
      s.finalOk n [s.rng.keyGen, keyCheck s.rng.key]))

end Sys2Proof.Machine
end

