-- ==== Sys2Proof/Machine/Arcade.lean ====
section
/-! DEFINITION. The Arcade link: the control block (R288), the reply ring (R289), snoops (R290) and retraining (R289,
R291). -/

namespace Sys2Proof.Machine

/-- Replies that wait are discarded and counted while there is no ring or no link (R289). Log entry 55: DEDUCED. -/
def State.dropWaiting (s : State) : State :=
  if s.arc.ring then s
  else
    let s' := ({ s with arc := { s.arc with waiting := [] } }).countEach 0x1503 0 s.arc.waiting.length
    s.arc.waiting.foldl (fun s r => s.replySent r.1) s'

/-- A command received on Arcade has not drawn its final reply: it is in the journal, or a reply waits for its slot, that of a
command refused at its receipt too. -/
def State.arcadeOpen (s : State) : Bool := s.cur.cmds.any (fun c => c.port == .arcade) || s.arc.waiting != []

/-- A REPLY_SLOTS value that Table 13-4 allows. -/
def slotsOk (n : Nat) : Bool := n == 0 || (decide (16 ≤ n) && decide (n ≤ 32768))

/-- A word of the control block as the companion reads it (Table 13-4). -/
def State.ctlWord (s : State) (w : Nat) : Word :=
  let a := s.arc
  BitVec.ofNat 64 (match w with
    | 0 => pack [(0, 16, 1), (16, 16, Port.arcade.depth)]
    | 1 => a.replyBase
    | 2 => pack [(0, 16, a.replySlots), (16, 16, a.replyProd), (32, 16, a.replyCons), (48, 16, a.intVector)]
    | 3 => pack [(0, 1, b2n a.intEn), (1, 1, b2n a.linkUp), (2, 1, b2n s.cur.ready), (3, 1, b2n s.cur.handover)]
    | _ => 0)

/-- A CTL write of word `w`: the control block it leaves, or none when it is ignored as a whole. A write of word 2 that
leaves REPLY_SLOTS as it is writes REPLY_CONS and INT_VECTOR only. Log entry 55: DEDUCED. -/
def State.ctlWrite (s : State) (w v : Nat) : Option Arcade :=
  let a := s.arc
  match w with
  | 0 => if fld v 32 32 ≠ 0 then none else some a
  | 1 =>
    if fld v 52 12 ≠ 0 ∨ fld v 0 9 ≠ 0 ∨ s.arcadeOpen then none else some { a with replyBase := fld v 0 52 }
  | 2 =>
    let slots := fld v 0 16
    let cons := fld v 32 16
    if !slotsOk slots ∨ (slots ≠ 0 ∧ cons ≥ slots) ∨ (slots ≠ a.replySlots ∧ s.arcadeOpen) then none
    else some { a with replySlots := slots, replyCons := cons, intVector := fld v 48 16 }
  | 3 => if fld v 4 60 ≠ 0 then none else some { a with intEn := bit v 0 }
  | _ => if v ≠ 0 then none else some a

/-- A CTL message: a write of `v`, or a read where there is none. Each draws its completion, an ignored write too (R287).
Log entry 55: DEDUCED. -/
def execArcadeCtlWrite (w : Nat) (v : Option Word) (s : State) : Result :=
  .next (if !s.arc.linkUp ∨ w > 7 then s
    else match v with
      | none => s.send (.ctl w (some (s.ctlWord w)))
      | some v =>
        (match s.ctlWrite w v.toNat with
        | some a => ({ s with arc := a }).dropWaiting
        | none => s.count1 0x1501 0).send (.ctl w none))

/-- A reply that waited for a slot is written. -/
def execReplyRingWrite (s : State) : Result :=
  .next (match s.arc.waiting with
    | [] => s
    | r :: rest =>
      if s.arc.full then s else (({ s with arc := { s.arc with waiting := rest } }).ringWrite r.2).replySent r.1)

/-! ### Snoops -/

/-- The first write in flight that holds a companion line Exclusive: tile, queue, started descriptor, write and row.
Log entry 55: DEDUCED. -/
def State.lineHeld (s : State) (line : Nat) : Option (Nat × Nat × Nat × Nat × Row) :=
  s.tiles.findSome? (fun t => t.2.queues.findSome? (fun q =>
    q.2.started.zipIdx.findSome? (fun st => st.1.out.zipIdx.findSome? (fun o =>
      if decodeAddr o.1.1 = some (.comp (line / 8)) ∧ !bit o.1.2.2 (line % 8) then
        some (t.1, q.1, st.2, o.2, o.1.2.1)
      else none))))

/-- A snoop: the write of a line held Exclusive is completed and the data answered; any other line is answered Invalid. -/
def execArcadeSnp (line : Nat) (s : State) : Result :=
  .next (if !s.arc.linkUp then s
    else match s.lineHeld line with
      | none => s.send (.srsp line none)
      | some (p, q, j, k, x) =>
        let i := line % 8
        let r := line / 8
        let old := Sparse.get 0 s.mem.comp r
        let d := elem 512 x.toNat i
        let s := { s with mem := { s.mem with comp := Sparse.set 0 s.mem.comp r (row (setFld old.toNat (512 * i) 512 d)) } }
        let s := s.updStarted p q j (fun st =>
          { st with out := modifyAt st.out k (fun o => (o.1, o.2.1, o.2.2 + 2 ^ i)) })
        s.send (.srsp line (some (BitVec.ofNat 512 d))))

/-! ### Retraining -/

/-- The ring registers are cleared, every aperture is withdrawn, and the link is up. Log entry 55: DEDUCED. -/
def State.retrain (s : State) : State :=
  let s := { s with
    arc := { s.arc with linkUp := true, replyBase := 0, replySlots := 0, replyProd := 0, replyCons := 0, phase := true },
    mem := { s.mem with apertures := [] } }
  s.dropWaiting

/-- A port with a failed PHY block stays down (R18, R358). -/
def execArcadeRetrain (s : State) : Result :=
  .next (if 4 ≤ s.boot.phase ∧ s.power.rails ∧ !s.phyFailed 0 then s.retrain.tellStrip else s)

end Sys2Proof.Machine
end

