-- ==== Sys2Proof/Machine/Banks.lean ====
section
/-! DEFINITION. The combine inside a bank (R98, R204), and what a bank does in its free accesses: patrol (R205), write-back
(R203) and the late check of a same-bank combine (R204). -/

namespace Sys2Proof.Machine

/-- The row as the cells of a bank deliver it to a combine, with no codeword checked; a fresh row reads as zero by any reader
(R147). -/
def Tile.rawRow (t : Tile) (r : Nat) : Row :=
  let (b, br) := bankOf r
  if Sparse.get false t.fresh r then 0 else senseRaw (Sparse.get 0 t.rows r) (t.faultsAt b br)

/-- The two operand rows of a combine as the unit receives them (R98, R204). Operands of one bank are sensed together,
unchecked, and queued for the late check unless fresh (R147); operands of two banks are each read through the checked path and counted; a
row combined with itself is one read. Log entry 23: DESIGN CHOICE. -/
def State.combineRows (s : State) (p a b : Nat) : State × Nat × Nat :=
  if a = b then
    let (s, x) := readRow s p a
    (s, x.toNat, x.toNat)
  else
    let (ba, ra) := bankOf a
    let (bb, rb) := bankOf b
    if ba = bb then
      let t := s.tile p
      let k := t.bank ba
      let id := t.combines
      let sensed := [(a, ra), (b, rb)].filter (fun e => !Sparse.get false t.fresh e.1)
      let t' := { t.setBank ba { k with late := k.late ++ sensed.map (fun e => (e.2, id, false)) } with combines := id + 1 }
      (s.setTile p t', (t.rawRow a).toNat, (t.rawRow b).toNat)
    else
      let (s, x) := readRow s p a
      let (s, y) := readRow s p b
      (s.count1 0x0501 p, x.toNat, y.toNat)

/-- The two rows of a combine that an operation makes itself (R101, R118): those of the tile's own scratchpad as a combine
receives them, others as the operation has read them (`x`, `y`). `own` is the tile's logical number. Log entry 23: DESIGN
CHOICE. -/
def State.combinePlaces (s : State) (p own : Nat) (a b : Option Place) (x y : Nat) : State × Nat × Nat :=
  match a, b with
  | some (.scr t r), some (.scr u q) => if t = own ∧ u = own then s.combineRows p r q else (s, x, y)
  | _, _ => (s, x, y)

/-- Physical tile and bank number of a bank. -/
def bankKey : BankId → Nat × Nat
  | .scr p b => (p, b % 16)
  | .acc p a b => (p, 16 + 4 * (a % 4) + b % 4)

/-- The bank row whose contents the cells of physical row `pr` hold; none when no bank row's contents lie there. -/
def Bank.holder (k : Bank) (b pr : Nat) : Option Nat :=
  if pr < bankRows b then (if Sparse.get 0 k.remap pr = 0 then some pr else none)
  else (k.remap.find? (fun e => decide (e.1 < bankRows b) && k.place b e.1 == pr)).map (fun e => e.1)

/-- The port of a bank has a free access: no request holds, locks or wants it (R205, R283). -/
def State.bankFree (s : State) (id : BankId) : Bool :=
  let a := s.arb (.bank id)
  a.holder.isNone && a.locked.isNone && a.resume.isNone && a.pending.isEmpty && a.outside.isEmpty && a.results.isEmpty

/-- A checked read of bank row `br`, with its books. -/
def State.checkRow (s : State) (p b br : Nat) : State × Sensed :=
  if Sparse.get false (s.tile p).fresh (rowOf b br) then (s, ⟨0, false, false⟩)
  else
    let s := s.settle p b br
    let t := s.tile p
    let f := senseRow (Sparse.get 0 t.rows (rowOf b br)) (t.faultsAt b br)
    (if f.corrected ∨ f.uncorrectable then s.noteRead p b br f else s, f)

def State.updBank (s : State) (p b : Nat) (f : Bank → Bank) : State := s.updTile p (fun t => t.setBank b (f (t.bank b)))

/-- The bank row that a patrol reading physical row `pr` checks: the one whose contents lie there, or a spare that was
never taken; none for cells out of use (R205, R206; log entry 35). Log entry 35: DEDUCED. -/
def Bank.patrolled (k : Bank) (b pr : Nat) : Option Nat :=
  match k.holder b pr with
  | some br => some br
  | none => if bankRows b ≤ pr ∧ !k.taken.contains (pr - bankRows b) then some pr else none

/-- A patrol's read of bank row `br`: the cells are sensed and checked even behind a fresh mark (R147). -/
def State.senseCells (s : State) (p b br : Nat) : State :=
  let s := s.settle p b br
  let t := s.tile p
  let f := senseRow (if br < bankRows b then Sparse.get 0 t.rows (rowOf b br) else 0) (t.faultsAt b br)
  if f.corrected ∨ f.uncorrectable then s.noteRead p b br f else s

/-- A patrol reads the next row of its bank, spare rows included, in a free access (R205). Log entry 35: DEDUCED. -/
def execPatrolRead (id : BankId) (s : State) : Result :=
  .next (if !s.bankFree id then s else
    let (p, b) := bankKey id
    let k := (s.tile p).bank b
    let pr := k.patrol
    let s := s.updBank p b (fun k => { k with patrol := (pr + 1) % (bankRows b + bankSpares b) })
    match k.patrolled b pr with
    | some br => s.senseCells p b br
    | none => s)

/-- The bank writes the oldest corrected row back: the access of the write-back's own request (R203, Table 12-3). -/
def execEccWriteBack (id : BankId) (s : State) : Result :=
  .next (
    let (p, b) := bankKey id
    match ((s.tile p).bank b).wback with
    | [] => s
    | br :: _ => s.writeBack p b br)

/-- The next operand row of a same-bank combine is read through the checked path, in a free access; an error counts once for
its combine (R204). -/
def execCombineLateCheck (id : BankId) (s : State) : Result :=
  .next (if !s.bankFree id then s else
    let (p, b) := bankKey id
    match ((s.tile p).bank b).late with
    | [] => s
    | (br, n, counted) :: rest =>
      let s := s.updBank p b (fun k => { k with late := rest })
      let (s, f) := s.checkRow p b br
      if (f.corrected ∨ f.uncorrectable) ∧ !counted then
        (s.count1 0x0D03 p).updBank p b (fun k =>
          { k with late := k.late.map (fun e => if e.2.1 = n then (e.1, n, true) else e) })
      else s)

end Sys2Proof.Machine
end

