-- ==== Sys2Proof/Machine/Casts.lean ====
section
/-! DEFINITION. Casts and hot spares: the source's transfers (R360, R363, R365), the leaf's subscriptions and the copies it
keeps (R361, R362, R364, R366, R367). A transfer sends what the leaf's credits allow each time a grant arrives; row `i` of
it goes to offset `i` modulo 256. -/

namespace Sys2Proof.Machine

/-! ### The source -/

/-- CAST_GROUP, when one is set. -/
def State.castGroup (s : State) : Option Nat := if s.live keyCastGroup ≤ 63 then some (s.live keyCastGroup) else none

/-- This device is the cast source of quarter `q` (R360). -/
def State.castSource (s : State) (q : Nat) : Bool := s.house == q * 64 && s.castGroup.isSome

/-- The extents in order: device address and rows. -/
def State.castExtents (s : State) : List (Nat × Nat) :=
  (List.range 16).map (fun i => (s.live (keyCastExt + 2 * i), s.live (keyCastExt + 2 * i + 1)))

def State.shardRows (s : State) : Nat := s.castExtents.foldl (fun a e => a + e.2) 0

/-- The device address of row `i` of a list of extents. -/
def extentRow : List (Nat × Nat) → Nat → Option Nat
  | [], _ => none
  | (a, n) :: l, i => if i < n then some (a + 512 * i) else extentRow l (i - n)

/-- A cast record or header row (Table 15-5). -/
def castRecord (valid : Bool) (gen quarter source rows inst digest : Nat) : Row :=
  row (withCrcRow (pack [(0, 1, b2n valid), (1, 1, gen), (16, 8, quarter), (32, 14, source), (64, 40, rows),
    (128, 32, inst), (160, 128, digest)]))

/-- Row `i` of a transfer: the header, then the extents. None where the source row is not backed. -/
def State.castSourceRow (s : State) (inst i : Nat) : State × Option Row :=
  if i = 0 then (s, some (castRecord false 0 (s.house / 64) s.house s.shardRows inst s.digest128))
  else match extentRow s.castExtents (i - 1) with
    | none => (s, none)
    | some a =>
      match s.srcPlace? a with
      | none => (s, none)
      | some pl =>
        let (s, x) := s.readPlace pl
        (s, some x)

def State.leaf (s : State) (h : Nat) : Option Leaf := s.casts.leaves.find? (fun l => l.house == h)

def State.updLeaf (s : State) (h : Nat) (f : Leaf → Leaf) : State :=
  { s with casts := { s.casts with leaves := modifyFirst (fun l => l.house == h) f s.casts.leaves } }

/-- The window that a leaf's account is for. -/
def leafKey (h : Nat) : AcctKey := { house := h, tile := 0, curator := true, window := 15 }

/-- A transfer ends: its account sends a TALLY (R323). `sent` says whether every row went. Log entry 57: DESIGN CHOICE. -/
def State.endTransfer (s : State) (h : Nat) (sent : Bool) : State :=
  match s.leaf h with
  | none => s
  | some l =>
    if l.xfer.isNone then s
    else
      let s := s.updLeaf h (fun l => { l with xfer := none })
      let s := if sent then s else { s with casts := { s.casts with bad := true } }
      let s := match s.route h with
        | some port => (s.sendSeq port h ftTally (tallyBody 0 15 l.acct.gen true l.acct.sent) none).1
        | none => s
      if s.casts.leaves.all (fun l => l.xfer.isNone) ∧ !s.casts.bad then
        { s with casts := { s.casts with allDone := l.inst } }
      else s

/-- A leaf's credit request is refused, or will draw no grant: the transfer ends, and the next begins with a request of its own
(R242, R363). -/
def State.castRefused (s : State) (h : Nat) : State :=
  (s.endTransfer h false).updLeaf h (fun l => { l with acct := { l.acct with held := 0, pending := 0 } })

/-- The source asks for credits for the rows still to send. -/
def State.castAsk (s : State) (h : Nat) : State :=
  match s.leaf h with
  | none => s
  | some l =>
    match l.xfer with
    | none => s
    | some i =>
      let (s, st) := s.sendPeer h 0x0404 (creditParams 0 15 (min 256 (s.shardRows + 1 - i)) true 0 true l.acct.sent)
        (.castCredit h)
      if st = stOk then s else s.endTransfer h false

/-- The rows of one data frame, from row `i` of a transfer, at most `n`. -/
def State.castRows (s : State) (inst i : Nat) : Nat → State × List Row
  | 0 => (s, [])
  | n + 1 =>
    match s.castSourceRow inst i with
    | (s, none) => (s, [])
    | (s, some x) =>
      let (s, xs) := State.castRows s inst (i + 1) n
      (s, x :: xs)

/-- Sends frames while credits are held. Log entry 56: DEDUCED. -/
def State.castSend (s : State) (h : Nat) : Nat → State
  | 0 => s
  | fuel + 1 =>
    match s.leaf h with
    | none => s
    | some l =>
      match l.xfer with
      | none => s
      | some i =>
        let total := s.shardRows + 1
        let n := min (min 8 l.acct.held) (min (total - i) (256 - i % 256))
        if i ≥ total then s.endTransfer h true
        else if n = 0 then s
        else
          let (s, rows) := s.castRows l.inst i n
          let k := rows.length
          if k = 0 then s.endTransfer h false
          else
            let sent := (l.acct.sent + k) % 2 ^ 32
            let s := s.updLeaf h (fun l =>
              { l with xfer := some (i + k), acct := { l.acct with sent := sent, held := l.acct.held - k } })
            let s := match s.route h with
              | none => s
              | some port => s.sendData port
                  { dst := h, src := s.house, tile := 0, window := 15, gen := l.acct.gen, off := i % 256, rows := k,
                    srcTile := 0, curator := true, sent := sent, remain := 65535 } rows
            State.castSend s h fuel

/-- A grant reaches a leaf's account: rows go, and more credits are asked for when none are pending. -/
def State.castGrant (s : State) (h : Nat) (g : Grant) : State :=
  match s.leaf h with
  | none => s
  | some l =>
    if g.status ≠ stOk then s.castRefused h
    else
      let turns := !l.acct.known || l.acct.gen != g.gen
      let a : Account :=
        { l.acct with gen := g.gen, rows := g.rows, known := true,
                      sent := if l.acct.known && l.acct.gen != g.gen then 0 else l.acct.sent,
                      held := (if turns then 0 else l.acct.held) + g.granted, pending := g.pending }
      let s := (s.updLeaf h (fun l => { l with acct := a })).castSend h 300
      match s.leaf h with
      | some l => if l.xfer.isSome ∧ l.acct.held = 0 ∧ l.acct.pending = 0 then s.castAsk h else s
      | none => s

/-- A completed link.coll_end of an instance of CAST_GROUP starts one transfer to each leaf (R363). -/
def State.startCasts (s : State) (id : Nat) : State :=
  if s.house % 64 = 0 ∧ s.castGroup = some (id / 2 ^ 26) then
    let ls : List Leaf := s.casts.leaves.map (fun (l : Leaf) => { l with xfer := some 0, inst := id })
    let s := { s with casts := { s.casts with lastInst := id, bad := false, leaves := ls } }
    s.casts.leaves.foldl (fun s l =>
      if l.acct.held > 0 ∨ l.acct.pending > 0 then s.castGrant l.house ⟨stOk, l.acct.gen, l.acct.rows, 0, l.acct.pending⟩
      else s.castAsk l.house) s
  else s

/-- The source's own link.coll_ready of the next instance stops transfers that are still reading (R365). -/
def State.stopCasts (s : State) (id : Nat) : State :=
  if s.house % 64 = 0 ∧ s.castGroup = some (id / 2 ^ 26) then
    (s.casts.leaves.filter (fun l => l.xfer.isSome)).foldl (fun s l =>
      let s := (s.endTransfer l.house false).count1 0x1B03 0
      { s with casts := { s.casts with overruns := (s.casts.overruns + 1) % 2 ^ 32 } }) s
  else s

/-! ### The leaf -/

def State.sub (s : State) (q : Nat) : Option Sub := s.casts.subs.find? (fun u => u.quarter == q)

def State.updSub (s : State) (q : Nat) (f : Sub → Sub) : State :=
  { s with casts := { s.casts with subs := modifyFirst (fun u => u.quarter == q) f s.casts.subs } }

def State.dropSub (s : State) (q : Nat) : State :=
  { s with casts := { s.casts with subs := s.casts.subs.filter (fun u => u.quarter != q) } }

/-- The window entry supplied for window 15: rows 0x5F00-0x5FFF, 256 credits, and tile 0 of each source listed.
Log entry 56: DEDUCED. -/
def castEntry (houses : List Nat) : Nat :=
  pack ([(0, 16, 0x5F00), (16, 16, 256), (32, 16, 256), (56, 3, houses.length)] ++
    (houses.zipIdx.map (fun e => (64 + 32 * e.2, 32, srcWord 0 e.1))))

/-- Window 15 of the active Curator tile is closed, and opened again for the live subscriptions (R361, R363, R367).
Log entry 57: DESIGN CHOICE. -/
def State.castWindow (s : State) : State :=
  match s.cur.active with
  | none => s
  | some p =>
    let s := s.closeWindow p 15
    match (s.casts.subs.filter (fun u => u.live)).map (fun u => u.quarter * 64) with
    | [] => s
    | l => (s.openWindow p 15 (castEntry l)).1

/-- The active Curator has changed: its tile takes window 15 over at generation `gen`, so that the opening advances it and
rows in flight are dropped (R215, R363). Log entry 57: DESIGN CHOICE. -/
def State.moveCastWindow (s : State) (gen : Nat) : State :=
  match s.cur.active with
  | none => s
  | some p => ((s.closeWindow p 15).setWin p 15 { Window.reset with gen := gen }).castWindow

/-- Row `i` of a leaf's region. -/
def State.writeRegion (s : State) (u : Sub) (i : Nat) (x : Row) : State :=
  match decodeAddr u.dst with
  | some pl => if s.room (pl.plus i) = 0 then s else s.writePlace (pl.plus i) x
  | none => s

/-- The generation that does not hold the complete copy. -/
def Sub.target (u : Sub) : Nat := if u.valid then 1 - u.compGen else 0

/-- A transfer at the leaf did not become complete (R364). -/
def State.castIncomplete (s : State) (q : Nat) : State :=
  (s.updSub q (fun u => { u with active := false, accepted := 0, lost := false, incomplete := (u.incomplete + 1) % 2 ^ 32 })).count1 0x1B02 0

/-- A row at offset 0 is the header of a later instance. Log entry 56: DEDUCED. -/
def Sub.isHeader (u : Sub) (off : Nat) (x : Row) : Bool :=
  off == 0 && crcOkRow x.toNat && fld x.toNat 16 8 == u.quarter && fld x.toNat 64 40 == u.shardRows &&
  fld x.toNat 128 32 != fld u.header.toNat 128 32

/-- A row accepted by window 15 of the active Curator, from house `h`: the leaf copies it and returns its credit.
Log entry 56: DEDUCED. -/
def State.castRow (s : State) (h off : Nat) (x : Row) : State :=
  match s.casts.subs.find? (fun u => u.live && u.quarter * 64 == h), s.cur.active with
  | some u, some p =>
    let s := if u.active ∧ u.isHeader off x then s.castIncomplete u.quarter else s
    let s := match s.sub u.quarter with
      | none => s
      | some u =>
        if !u.active then
          s.updSub u.quarter (fun u => { u with active := true, accepted := 1, header := x })
        else
          let s := if u.accepted ≤ u.shardRows then
              s.writeRegion u (u.target * u.shardRows + u.accepted) x
            else s
          s.updSub u.quarter (fun u => { u with accepted := u.accepted + 1 })
    s.returnCredits p 15 1
  | _, _ => s

/-- Rows of house `h` were settled as lost at window 15 of the active Curator. -/
def State.castLost (s : State) (h : Nat) : State :=
  match s.casts.subs.find? (fun u => u.live && u.quarter * 64 == h) with
  | some u => s.updSub u.quarter (fun u => { u with lost := true })
  | none => s

/-- The source's TALLY is settled: the transfer is complete or incomplete (R364). -/
def State.castTally (s : State) (h : Nat) : State :=
  match s.casts.subs.find? (fun u => u.live && u.quarter * 64 == h) with
  | none => s
  | some u =>
    if u.active ∧ !u.lost ∧ u.accepted = u.shardRows + 1 then
      let g := u.target
      let x := u.header.toNat
      let r := castRecord true g (fld x 16 8) (fld x 32 14) (fld x 64 40) (fld x 128 32) (fld x 160 128)
      let s := s.updSub u.quarter (fun u =>
        { u with active := false, accepted := 0, valid := true, compGen := g, record := r })
      (s.writeRegion u 0 r).count1 0x1B01 0
    else if u.active ∨ u.lost then s.castIncomplete u.quarter
    else s

/-- Sends the Peer command cast.subscribe for a quarter; `n` is the leaf's own command, if one waits. -/
def State.sendSubscribe (s : State) (n : Option Nat) (q dst : Nat) : State × Nat :=
  s.sendPeer (q * 64) 0x0A00 (pack [(0, 8, q), (8, 64, dst)]) (.subscribe n q)

def State.sendUnsubscribe (s : State) (q : Nat) : State := (s.sendPeer (q * 64) 0x0A01 q (.unsubscribe q)).1

/-- Ends a subscription at the leaf (R367). -/
def State.endSub (s : State) (q : Nat) : State := ((s.dropSub q).castWindow).sendUnsubscribe q

/-- The final reply of a leaf's subscribing command. -/
def State.answerSub (s : State) (n : Option Nat) (status detail : Nat) : State :=
  match n with
  | some n => s.final n status detail []
  | none => s

/-- The source has answered cast.subscribe: steps 4 and 5 of R361. A renewed subscription opens window 15 again and keeps
the record. Log entry 57: DESIGN CHOICE. -/
def State.subscribed (s : State) (n : Option Nat) (q status detail : Nat) (shard : Nat) : State :=
  match s.sub q with
  | none => s.answerSub n stCancelled 0
  | some u =>
    if status ≠ stOk then
      match n with
      | some _ => (s.dropSub q).answerSub n status detail
      | none => s
    else if u.rows < 2 * shard + 1 then (s.endSub q).answerSub n stLength 0
    else
      let s := if u.active ∨ u.lost then s.castIncomplete q else s
      let s := s.updSub q (fun u => { u with live := true, shardRows := shard, active := false, accepted := 0, lost := false })
      let s := match n with
        | none => s
        | some _ =>
          let (s, d) := s.draw
          let (s, e) := s.draw
          let r := castRecord false 0 q (q * 64) shard (Config.unstated d % 2 ^ 32) (Config.unstated e % 2 ^ 128)
          (s.updSub q (fun u => { u with record := r })).writeRegion u 0 r
      s.castWindow.answerSub n stOk 0

/-! ### Commands -/

def isPeerPort : Port → Bool
  | .cwy _ => true
  | _ => false

def Sub.fresh (q dst rows : Nat) : Sub :=
  { quarter := q, dst := dst, rows := rows, live := false, shardRows := 0, valid := false, compGen := 0, record := 0,
    accepted := 0, header := 0, lost := false, active := false, incomplete := 0 }

/-- cast.subscribe as a Peer command at the source. A leaf that is registered already is registered anew.
Log entry 57: DESIGN CHOICE. -/
def State.registerLeaf (s : State) (n q h : Nat) : State :=
  let rest := s.casts.leaves.filter (fun l => l.house != h)
  if !s.castSource q then s.refuse n stBadParam
  else if rest.length ≥ 4 then s.refuse n stNoResource
  else
    let l : Leaf := { house := h, xfer := none, inst := 0, acct := Account.fresh (leafKey h) }
    let rows := s.shardRows
    ({ s with casts := { s.casts with leaves := rest ++ [l] } }).finalOk n
      [rows % 2 ^ 32, rows / 2 ^ 32 % 2 ^ 32, s.casts.lastInst]

def execCastSubscribe (n : Nat) (s : State) : Result :=
  .next (s.run n 0x0A00 (fun c s =>
    let q := c.arg 0
    if isPeerPort c.port then s.registerLeaf n q c.house
    else match decodeAddr (c.arg 1) with
      | none => s.refuse n stBadParam
      | some pl =>
        if pl.tier > 1 ∨ s.room pl = 0 then s.refuse n stBadParam
        else if c.arg 2 > s.room pl then s.refuse n stLength
        else if (s.sub q).isSome then s.refuse n stConflict
        else if s.casts.subs.length ≥ 4 then s.refuse n stNoResource
        else
          let s := { s with casts := { s.casts with subs := s.casts.subs ++ [Sub.fresh q (c.arg 1) (c.arg 2)] } }
          let tag := s.cur.nextTag
          let (s, st) := s.sendSubscribe (some n) q (c.arg 1)
          if st ≠ stOk then (s.dropSub q).refuse n st else s.await n (.peer tag)))

/-- cast.unsubscribe. A quarter that the leaf is not subscribed to completes OK and changes nothing.
Log entry 57: DESIGN CHOICE. -/
def execCastUnsubscribe (n : Nat) (s : State) : Result :=
  .next (s.run n 0x0A01 (fun c s =>
    let q := c.arg 0
    if isPeerPort c.port then
      ({ s with casts := { s.casts with leaves := s.casts.leaves.filter (fun l => l.house != c.house) } }).finalOk n []
    else match s.sub q with
      | none => s.finalOk n []
      | some _ => (s.endSub q).finalOk n []))

/-- The first cast.subscribe of a quarter waits for its source. -/
def State.subscribing (s : State) (q : Nat) : Bool :=
  s.cur.sent.any (fun x => match x.purpose with
    | .subscribe (some _) r => r == q
    | _ => false)

/-- cast.status (R367). A leaf is subscribed from its source's first answer on, whatever becomes of the conversation. -/
def execCastStatus (n : Nat) (s : State) : Result :=
  .next (s.run n 0x0A02 (fun c s =>
    let q := c.arg 0
    if s.castSource q then s.finalOk n [s.casts.leaves.length, s.casts.allDone, s.casts.overruns]
    else match s.sub q with
      | some u =>
        if s.subscribing q ∧ !u.valid then s.finalOk n [0, 0, 0, 0]
        else s.finalOk n [if u.valid then 2 else 1, fld u.record.toNat 128 32, u.accepted % 2 ^ 32, u.incomplete]
      | none => s.finalOk n [0, 0, 0, 0]))

/-- A leaf whose conversation with the source was reset subscribes again (R366). -/
def execCastResubscribe (quarter : Nat) (s : State) : Result :=
  .next (match s.sub quarter with
    | none => s
    | some u =>
      let asked := s.cur.sent.any (fun x => match x.purpose with
        | .subscribe _ q => q == quarter
        | _ => false)
      if u.live ∨ asked ∨ !s.cur.ready then s else (s.sendSubscribe none quarter u.dst).1)

end Sys2Proof.Machine
end

