-- ==== Sys2Proof/Machine/Collectives.lean ====
section
/-! DEFINITION. Collectives: groups (R334), the tree (R335), the three phases at a member (R336), checks and aborts
(R337). -/

namespace Sys2Proof.Machine

/-! ### Groups and the tree -/

def collGroup (id : Nat) : Nat := id / 2 ^ 26 % 64

/-- SIZE of a group; 0 when it is not configured. -/
def State.groupSize (s : State) (g : Nat) : Nat := fld (s.live (keyGroup + g)) 0 15

/-- House number of rank `r` of a group. -/
def State.rankHouse (s : State) (g r : Nat) : Nat :=
  let i := fld (s.live (keyGroup + g)) 32 15 + r
  fld (s.live (keyRank + i / 4)) (16 * (i % 4)) 14

/-- The lowest set bit of a number that has one. -/
def lowBit (r : Nat) : Nat := 2 ^ ((findBelow (bit r) 16).getD 0)

/-- top(r) of R335. -/
def collTop (r size : Nat) : Nat :=
  if r = 0 then 2 ^ ((findBelow (fun k => decide (size ≤ 2 ^ k)) 16).getD 0) else lowBit r

def collParent (r size : Nat) : Nat := r - collTop r size

/-- children(r) of R335, in ascending k. -/
def collChildren (r size : Nat) : List Nat :=
  ((List.range 15).filter (fun k => decide (2 ^ k < collTop r size) && decide (r + 2 ^ k < size))).map (fun k => r + 2 ^ k)

/-! ### Entries -/

def State.coll (s : State) (id : Nat) : Option Coll := s.colls.find? (fun c => c.id == id)

def State.updColl (s : State) (id : Nat) (f : Coll → Coll) : State :=
  { s with colls := modifyFirst (fun c => c.id == id) f s.colls }

/-- The entry is freed, and its timers stop. -/
def State.dropColl (s : State) (id : Nat) : State :=
  ({ s with colls := s.colls.filter (fun c => c.id != id) }).stopTimers (fun t => t == Timer.phase id || t == Timer.aborted id)

/-- COLL_TIMEOUT_MS in ns (R334). -/
def State.collBound (s : State) : Nat := 1000000 * s.live keyCollTimeout

def Coll.held (id : Nat) : Coll :=
  { id := id, begun := false, rank := 0, kind := 0, accfmt := 0, anchor := 0, size := 0, phase := 0, complete := false,
    own := none, children := [], sentUp := false, aborted := none }

/-- A child's link.coll_begin agrees with the member's own declaration. -/
def Coll.agrees (k : Coll) (c : Cmd) : Bool :=
  c.arg 1 == k.kind && c.arg 3 == k.size && c.arg 4 == k.accfmt && c.arg 5 == k.anchor

/-- Opcode of a phase. -/
def collOp (phase : Nat) : Nat := 0x0D10 + phase

/-- PARAMS of a phase command of this member. -/
def Coll.params (k : Coll) (phase : Nat) : Nat :=
  if phase = 0 then
    pack [(0, 32, k.id), (32, 4, k.kind), (36, 14, k.rank), (50, 15, k.size), (65, 2, k.accfmt), (67, 16, k.anchor)]
  else pack [(0, 32, k.id), (32, 14, k.rank)]

/-- Children's commands are answered, and their time stops. -/
def State.answerChildren (s : State) (l : List (Nat × Nat × Nat)) (status : Nat) : State :=
  l.foldl (fun s c => (s.stopTimers (fun t => t == Timer.child c.2.2)).final c.2.2 status 0 []) s

/-! ### Aborts (R337) -/

/-- The collective aborts at this member with a status: pending commands are answered, and the abort goes to the parent
unless it came from there. -/
def State.abortColl (s : State) (id status : Nat) (fromParent : Bool) : State :=
  match s.coll id with
  | none => s
  | some k =>
    if k.aborted.isSome then s
    else
      let s := s.answerChildren k.children status
      let s := match k.own with
        | some n => s.final n status 0 []
        | none => s
      let s := if fromParent ∨ k.rank = 0 ∨ !k.begun then s
        else (s.sendPeer (s.rankHouse (collGroup id) (collParent k.rank k.size)) (collOp 2) (k.params 2) (.collUp id 2)).1
      let s := (s.updColl id (fun k => { k with own := none, children := [], aborted := some status })).count1 0x1902 0
      s.startTimer (.aborted id) s.curDie

/-! ### Phases (R336) -/

/-- The phase in progress has completed: the children are answered, then the member's own command. A completed end frees
the entry and starts the casts. -/
def State.completeColl (s : State) (id : Nat) : State :=
  match s.coll id with
  | none => s
  | some k =>
    let now := k.children.filter (fun c => c.2.1 == k.phase)
    let s := s.answerChildren now stOk
    let s := match k.own with
      | some n => s.finalOk n []
      | none => s
    if k.phase = 2 then (s.dropColl id).startCasts id
    else s.updColl id (fun k =>
      { k with complete := true, own := none, children := k.children.filter (fun c => c.2.1 != k.phase) })

/-- Sends the phase up, or completes it at rank 0, once the member's own command and all its children's are present. -/
def State.advanceColl (s : State) (id : Nat) : State :=
  match s.coll id with
  | none => s
  | some k =>
    if !k.begun ∨ k.aborted.isSome ∨ k.complete ∨ k.sentUp then s
    else if !(collChildren k.rank k.size).all (fun r => k.children.any (fun c => c.1 == r && c.2.1 == k.phase)) then s
    else if k.rank = 0 then s.completeColl id
    else
      let s := s.updColl id (fun k => { k with sentUp := true })
      let (s, st) := s.sendPeer (s.rankHouse (collGroup id) (collParent k.rank k.size)) (collOp k.phase) (k.params k.phase)
        (.collUp id k.phase)
      if st = stOk then s else s.abortColl id st false

/-- The parent's final reply to a phase. Log entry 58: DEDUCED. -/
def State.parentReplied (s : State) (id phase status : Nat) : State :=
  match s.coll id with
  | none => s
  | some k =>
    if k.aborted.isSome ∨ k.phase ≠ phase ∨ k.complete ∨ !k.sentUp then s
    else if status = stOk then s.completeColl id
    else s.abortColl id status true

/-- Takes an entry for a collective, when one of the 64 is free (R334). -/
def State.openColl (s : State) (id : Nat) : Option State :=
  if (s.coll id).isSome then some s
  else if s.colls.length ≥ 64 then none
  else some { s with colls := s.colls ++ [Coll.held id] }

/-- The collective is an entry that has aborted: whatever names it is answered CANCELLED (R337). -/
def State.collGone (s : State) (id : Nat) : Bool := (s.coll id).any (fun k => k.aborted.isSome)

/-- A child's command waits in the entry of its collective, its time running (R336). -/
def State.holdChild (s : State) (id rank phase n : Nat) : State :=
  ((s.updColl id (fun k => { k with children := k.children ++ [(rank, phase, n)] })).await n (.coll id)).startTimer (.child n) s.curDie

/-- A child's phase command at this member. Log entry 58: DEDUCED. -/
def State.childPhase (s : State) (c : Cmd) (phase : Nat) : State :=
  let id := c.arg 0
  let rank := if phase = 0 then c.arg 2 else c.arg 1
  let g := collGroup id
  let size := s.groupSize g
  let known (k : Coll) : Bool := !k.begun || (decide (0 < rank) && collParent rank k.size == k.rank)
  if s.collGone id then s.refuse c.n stCancelled
  else if size = 0 ∨ rank = 0 ∨ rank ≥ size ∨ s.rankHouse g rank ≠ c.house ∨ s.rankHouse g (collParent rank size) ≠ s.house then
    s.refuse c.n stBadParam
  else match s.coll id with
    | some k =>
      if !known k then s.refuse c.n stBadParam
      else
        let s := s.holdChild id rank phase c.n
        if !k.begun then s
        else if phase = 0 ∧ !k.agrees c then (s.count1 0x1901 0).abortColl id stConflict false
        else if phase = 2 ∧ !(decide (k.phase = 2) || (k.phase == 1 && k.complete)) then s.abortColl id stCancelled false
        else s.advanceColl id
    | none =>
      match s.openColl id with
      | none => s.refuse c.n stNoResource
      | some s => s.holdChild id rank phase c.n

/-- The member's own declaration passes R337. -/
def State.ownBeginOk (s : State) (c : Cmd) : Bool :=
  let g := collGroup (c.arg 0)
  let size := s.groupSize g
  size != 0 && decide (c.arg 2 < size) && s.rankHouse g (c.arg 2) == s.house && c.arg 3 == size && decide (c.arg 1 ≤ 4) &&
  (c.arg 4 == 1 || c.arg 4 == 2) && (c.arg 4 == 2 || c.arg 5 == 0)

/-- A command held for a child is a declaration that differs from the member's own. -/
def State.heldMismatch (s : State) (k : Coll) : Bool :=
  k.children.any (fun e => e.2.1 == 0 && (match s.cmd e.2.2 with
    | some c => !k.agrees c
    | none => false))

/-- Log entry 58: DEDUCED. -/
def State.ownBegin (s : State) (c : Cmd) : State :=
  let id := c.arg 0
  if s.collGone id then s.refuse c.n stCancelled
  else if !s.ownBeginOk c then s.refuse c.n stBadParam
  else match s.openColl id with
    | none => s.refuse c.n stNoResource
    | some s =>
      match s.coll id with
      | none => s
      | some k =>
        if k.begun then s.refuse c.n stConflict
        else
          let k : Coll := { k with begun := true, rank := c.arg 2, kind := c.arg 1, accfmt := c.arg 4, anchor := c.arg 5,
                                   size := c.arg 3, own := some c.n }
          let strange := k.children.filter (fun e => !(collChildren k.rank k.size).contains e.1)
          let s := s.answerChildren strange stBadParam
          let k := { k with children := k.children.filter (fun e => (collChildren k.rank k.size).contains e.1) }
          let s := ((s.updColl id (fun _ => k)).await c.n (.coll id)).startTimer (.phase id) s.curDie
          if s.heldMismatch k then (s.count1 0x1901 0).abortColl id stConflict false
          else if k.children.any (fun e => e.2.1 == 2) then s.abortColl id stCancelled false
          else s.advanceColl id

/-- The member's own link.coll_ready or link.coll_end. Log entry 58: DEDUCED. -/
def State.ownPhase (s : State) (c : Cmd) (phase : Nat) : State :=
  let id := c.arg 0
  match s.coll id with
  | none => s.refuse c.n stBadParam
  | some k =>
    if k.aborted.isSome then s.refuse c.n stCancelled
    else if !k.begun ∨ c.arg 1 ≠ k.rank then s.refuse c.n stBadParam
    else if k.phase + 1 = phase ∧ k.complete then
      let s := if phase = 1 then s.stopCasts id else s
      let s := s.updColl id (fun k => { k with phase := phase, complete := false, sentUp := false, own := some c.n })
      ((s.await c.n (.coll id)).startTimer (.phase id) s.curDie).advanceColl id
    else if phase = 2 ∧ k.phase ≠ 2 then (s.abortColl id stCancelled false).refuse c.n stCancelled
    else s.refuse c.n stConflict

def State.phaseCmd (s : State) (c : Cmd) (phase : Nat) : State :=
  if isPeerPort c.port then s.childPhase c phase
  else if phase = 0 then s.ownBegin c
  else s.ownPhase c phase

def execLinkCollBegin (n : Nat) (s : State) : Result := .next (s.run n 0x0D10 (fun c s => s.phaseCmd c 0))
def execLinkCollReady (n : Nat) (s : State) : Result := .next (s.run n 0x0D11 (fun c s => s.phaseCmd c 1))
def execLinkCollEnd (n : Nat) (s : State) : Result := .next (s.run n 0x0D12 (fun c s => s.phaseCmd c 2))

/-! ### Expiries -/

/-- A phase has not completed within COLL_TIMEOUT_MS of the member's own command. -/
def execCollPhaseTimeout (id : Nat) (s : State) : Result :=
  .next (match s.coll id with
    | some k =>
      if k.begun ∧ k.aborted.isNone ∧ !k.complete then (s.expire (.phase id) s.collBound).abortColl id stCancelled false else s
    | none => s)

/-- The command that a collective has held longest leaves it, and an entry that holds nothing any more goes. -/
def State.dropChild (s : State) (id : Nat) : State :=
  let s := s.updColl id (fun k => { k with children := k.children.drop 1 })
  if (s.coll id).any (fun k => k.children.isEmpty) then s.dropColl id else s

/-- A child's command for a collective that has not begun here has been held for COLL_TIMEOUT_MS (R336): of those held, the one
that came first, since the bound is the same for each. Log entry 58: DEDUCED. -/
def execCollHeldTimeout (id : Nat) (s : State) : Result :=
  .next (match s.coll id with
    | some k =>
      match k.begun, k.children with
      | false, c :: _ => ((s.expire (.child c.2.2) s.collBound).dropChild id).answerChildren [c] stCancelled
      | _, _ => s
    | none => s)

/-- An aborted entry has been kept for COLL_TIMEOUT_MS. -/
def execCollEntryExpiry (id : Nat) (s : State) : Result :=
  .next (match s.coll id with
    | some k => if k.aborted.isSome then (s.expire (.aborted id) s.collBound).dropColl id else s
    | none => s)

/-- Collectives that a lost house takes part in abort (R337). -/
def State.abortWith (s : State) (h : Nat) : State :=
  s.colls.foldl (fun s k =>
    let g := collGroup k.id
    let near : List Nat := (if k.rank = 0 then [] else [collParent k.rank k.size]) ++ collChildren k.rank k.size
    if k.begun ∧ near.any (fun r => s.rankHouse g r == h) then s.abortColl k.id stCancelled false else s) s

end Sys2Proof.Machine
end

