-- ==== Sys2Proof/Machine/Compat.lean ====
section
/-! DEFINITION. The array operations of compatibility mode (R58, R193): c.mm and c.drain over the output tiles. -/

namespace Sys2Proof.Machine

/-- An output tile: 4,096 FP32 patterns, row-major, 64 to a row. -/
def Tile.otile (t : Tile) (a ot : Nat) : List Nat :=
  match Sparse.get [] t.otiles (2 * a + ot) with
  | [] => List.replicate 4096 0
  | l => l

/-- A tile that is all +0 is not listed. -/
def Tile.setOtile (t : Tile) (a ot : Nat) (l : List Nat) : Tile :=
  { t with otiles := Sparse.set [] t.otiles (2 * a + ot) (if l.all (fun x => x == 0) then [] else l) }

/-- One product into an element: FP32 under R64, or BF16-packed under R65 with the product as its column sum.
Log entry 30: DEDUCED. -/
def compatStep (bf16 : Bool) (acc : Nat) (p : Val) : Nat :=
  if bf16 then
    let sum := accFma 0 p
    plusZero 6 (toBf16 (f32Val (toF32 (Val.add (f32Val acc) (f32Val sum))))) * 2 ^ 16
  else accFma acc p

/-- Element `i` of a compatibility operand: 64 elements to each K index. -/
def compatElem (fmt x i : Nat) : Val := elemVal fmt (elem (fmtBits fmt) x i)

/-- Rows of an operand of length K. -/
def compatRows (fmt k : Nat) : Nat := cdiv (64 * k * fmtBytes fmt) 512

/-- The output tile after K products, from the values it starts with. -/
def compatProduct (bf16 : Bool) (fa fw k x w : Nat) (start : List Nat) : List Nat :=
  start.zipIdx.map (fun e =>
    (List.range k).foldl (fun acc i =>
      compatStep bf16 acc (Val.mul (compatElem fa x (64 * i + e.2 / 64)) (compatElem fw w (64 * i + e.2 % 64)))) e.1)

def opCMm (p : Nat) (o : Op) (s : State) : Outcome :=
  let arrays := setBits 4 (o.f 16 4)
  let fa := o.f 20 4
  let fw := o.f 24 4
  let ot := o.f 29 1
  let k := o.f 31 24
  match o.ix 55 16, o.ix 71 16 with
  | some act, some wt =>
    let wr := compatRows fw k
    if arrays = [] then failOut s stBadParam 0
    else if act + compatRows fa k > 0x6000 ∨ wt + arrays.length * wr > 0x6000 then failOut s stLength 0
    else
      let (s, x) := readRows s p act (compatRows fa k)
      let s := if k = 0 then s else s.rampUp p arrays
      okOut (arrays.zipIdx.foldl (fun s e =>
        let (s, w) := readRows s p (wt + e.2 * wr) wr
        let start := if bit o.bits 30 then (s.tile p).otile e.1 ot else List.replicate 4096 0
        s.updTile p (fun t => t.setOtile e.1 ot (compatProduct (bit o.bits 28) fa fw k x w start))) s)
  | _, _ => failOut s stBadParam 0

/-- c.mm (R193). -/
def execCMm (t l : Nat) (s : State) : Result :=
  .next (s.issue t l true (fun c => c == 0x20)
    (fun p o s => (opCMm p o s).later p o ((setBits 4 (o.f 16 4)).map TileUnit.arr) [] []))

/-- One conversion of the output tiles of every named array, counted once (R76). -/
def opCDrain (p : Nat) (o : Op) (s : State) : Outcome :=
  let arrays := setBits 4 (o.f 16 4)
  let ot := o.f 20 1
  let fmt := o.f 21 4
  let round := o.f 25 2
  match o.ix 27 9 with
  | none => failOut s stBadParam 0
  | some r =>
    if arrays = [] then failOut s stBadParam 0
    else if r + 8 * fmtBytes fmt > 512 then failOut s stLength 0
    else
      let words := arrays.flatMap (fun a => (s.tile p).otile a ot)
      let (s, bits) := s.convertAll p fmt round (words.map (fun x => (f32Val x, 0)))
      okOut (arrays.zipIdx.foldl (fun s e =>
        writeRows s p (accRow e.1 r)
          (rowsOfNat (8 * fmtBytes fmt) (packElems (fmtBits fmt) ((bits.drop (4096 * e.2)).take 4096)))) s)

/-- c.drain (R193). -/
def execCDrain (t l : Nat) (s : State) : Result :=
  .next (s.issue t l true (fun c => c == 0x21)
    (fun p o s => (opCDrain p o s).later p o ((setBits 4 (o.f 16 4)).map TileUnit.arr) [] []))

end Sys2Proof.Machine
end

