-- ==== Sys2Proof/Machine/Concordance.lean ====
section
/-! DEFINITION. The bitmap operations of the concordance unit (R96-R101, Table 05-1). -/

namespace Sys2Proof.Machine

/-- The three combining functions. -/
inductive Combine where
  | and
  | or
  | andn
deriving DecidableEq, Repr

def Combine.apply : Combine → Nat → Nat → Nat
  | .and, a, b => a &&& b
  | .or, a, b => a ||| b
  | .andn, a, b => a - (a &&& b)

/-- A row number that a bitmap operation may name (R96). -/
def concRow : Option Nat → Bool
  | some r => decide (r < 0x6000)
  | none => false

def validOk (v : Nat) : Bool := decide (1 ≤ v) && decide (v ≤ 4096)

/-- conc.and, conc.or, conc.andn: both operands are sensed before the destination is written (R100). Set bits at or above
VALID_BITS are forced to zero (R99) and count no padding bit, as those of a gather's bitmap at or above ROWS do not; the
spec leaves both open. Log entry 84: DESIGN CHOICE. -/
def opCombine (f : Combine) (p : Nat) (o : Op) (s : State) : Outcome :=
  let dw := bit o.bits 64
  let valid := o.f 65 13
  match o.ix 16 16, o.ix 32 16 with
  | some a, some b =>
    if a ≥ 0x6000 ∨ b ≥ 0x6000 ∨ !validOk valid ∨ (dw ∧ !concRow (o.ix 48 16)) then failOut s stBadParam 0
    else
      let (s, x, y) := s.combineRows p a b
      let r := f.apply x y % 2 ^ valid
      okOut (if dw then writeRow s p ((o.ix 48 16).getD 0) (row r) else s)
  | _, _ => failOut s stBadParam 0

def execConcAnd (t l : Nat) (s : State) : Result :=
  .next (s.issue t l false (fun c => c == 0x30) (fun p o s => (opCombine .and p o s).later p o [.conc] [] []))
def execConcOr (t l : Nat) (s : State) : Result :=
  .next (s.issue t l false (fun c => c == 0x31) (fun p o s => (opCombine .or p o s).later p o [.conc] [] []))
def execConcAndn (t l : Nat) (s : State) : Result :=
  .next (s.issue t l false (fun c => c == 0x32) (fun p o s => (opCombine .andn p o s).later p o [.conc] [] []))

/-- conc.pop: the count of row a's bits below VALID_BITS. Table 05-1 lets it take a combined row, and Table 08-4 gives it no
field that names one: it takes a row, and a combined row that no destination keeps is not kept. Log entry 84: DESIGN
CHOICE. -/
def opConcPop (p : Nat) (o : Op) (s : State) : Outcome :=
  let valid := o.f 36 13
  match o.ix 16 16 with
  | none => failOut s stBadParam 0
  | some a =>
    if a ≥ 0x6000 ∨ !validOk valid then failOut s stBadParam 0
    else
      let (s, x) := readRow s p a
      let n := popcount valid x.toNat
      { s := s, res0 := n, writes := [(o.f 32 4, n)] }

def execConcPop (t l : Nat) (s : State) : Result :=
  .next (s.issue t l false (fun c => c == 0x33) (fun p o s => (opConcPop p o s).later p o [.conc] [o.f 32 4] []))

/-- The count of present bits over `n` consecutive rows. -/
def State.scanRows (s : State) (p valid : Nat) : Nat → Nat → State × Nat
  | 0, _ => (s, 0)
  | n + 1, r =>
    let (s, x) := readRow s p r
    let (s, c) := State.scanRows s p valid n (r + 1)
    (s, popcount valid x.toNat + c)

/-- conc.scan over COUNT rows, 1 to 24,576. -/
def opConcScan (p : Nat) (o : Op) (s : State) : Outcome :=
  let count := o.f 32 16
  let valid := o.f 52 13
  match o.ix 16 16 with
  | none => failOut s stBadParam 0
  | some a =>
    if count = 0 ∨ a + count > 0x6000 ∨ !validOk valid then failOut s stBadParam 0
    else
      let (s, n) := s.scanRows p valid count a
      { s := s, res0 := n, writes := [(o.f 48 4, n)] }

def execConcScan (t l : Nat) (s : State) : Result :=
  .next (s.issue t l false (fun c => c == 0x34) (fun p o s => (opConcScan p o s).later p o [.conc] [o.f 48 4] []))

/-- A match entry (Table 05-2). -/
def matchEntry (kblk posA posB pair : Nat) : Nat := pack [(0, 20, kblk), (32, 32, posA), (64, 32, posB), (96, 16, pair)]

/-- The entries of a program's conc.match (R101): one per common bit, in ascending KBLK, restricted by rank. A base plus a rank is
taken modulo 2^32. Log entry 32: DEDUCED; log entry 84: DESIGN CHOICE. -/
def matchEntries (a b valid baseA baseB rside rfirst rcount : Nat) : List Nat :=
  ((setBits valid (a &&& b)).filter (fun i =>
    let rank := if rside = 0 then popcount i a else popcount i b
    rcount == 0 || (decide (rfirst ≤ rank) && decide (rank < rfirst + rcount)))).map
    (fun i => matchEntry i ((baseA + popcount i a) % 2 ^ 32) ((baseB + popcount i b) % 2 ^ 32) 0)

/-- conc.match: entries to rows from D and to a stream queue, whose buffer takes 32 and holds the operation until it has taken
the others (R234). Set bits at or above VALID_BITS match nothing and are not counted, and the bytes after the last entry of the
final row of D are zero. Log entry 32: DEDUCED; log entry 84: DESIGN CHOICE. -/
def opConcMatch (p : Nat) (o : Op) (s : State) : Outcome :=
  let dw := bit o.bits 64
  let valid := o.f 65 13
  let qen := bit o.bits 207
  let q := o.f 208 3
  match o.ix 16 16, o.ix 32 16 with
  | some a, some b =>
    if a ≥ 0x6000 ∨ b ≥ 0x6000 ∨ !validOk valid ∨ (dw ∧ !concRow (o.ix 48 16)) then failOut s stBadParam 0
    else
      let other : Bool := match ((s.tile p).queue q).owner with
        | some w => w != o.list
        | none => false
      if qen ∧ other then failOut s stConflict 0
      else
        let (s', x, y) := s.combineRows p a b
        let es := matchEntries (x % 2 ^ valid) (y % 2 ^ valid) valid (o.f 78 32) (o.f 110 32) (o.f 206 1) (o.f 142 32)
          (o.f 174 32)
        let d := (o.ix 48 16).getD 0
        let n := cdiv es.length 32
        if dw ∧ d + n > 0x6000 then failOut s stBadParam 0
        else
          let s := if dw then writeRows s' p d (rowsOfNat n (packElems 128 es)) else s'
          if !qen then okOut s
          else
            { s := (s.updQueue p q (fun u => { u with held := u.held ++ es }.refill)).pump p, emits := some (q, es.length) }
  | _, _ => failOut s stBadParam 0

def execConcMatch (t l : Nat) (s : State) : Result :=
  .next (s.issue t l false (fun c => c == 0x35) (fun p o s => (opConcMatch p o s).later p o [.conc] [] []))

end Sys2Proof.Machine
end

