-- ==== Sys2Proof/Machine/Counters.lean ====
section
/-! DEFINITION. Reading, snapshots and clearing of counters (R427-R432, Tables 18-1 to 18-3), and the residues (R424). An
array instance has home number 4P + a. -/

namespace Sys2Proof.Machine

/-- What a SCOPE selects: a status when it is refused. -/
inductive Scope where
  | device
  | tile (p : Nat)
  | array (p a : Nat)
  | die (d : Nat)
  | channel (c : Nat)
  | cwy (n : Nat)
  | cxl (n : Nat)
  | stack (m : Nat)
  | residues
deriving DecidableEq, Repr

/-- A SCOPE decoded (Table 18-1), or the status it is refused with (R429). -/
def State.scopeOf (s : State) (x : Nat) : Except Nat Scope :=
  let i := fld x 0 12
  match fld x 12 4 with
  | 0 => if i = 0 then .ok .device else .error stBadParam
  | 1 =>
    if i ≥ 1024 then .error stBadParam
    else match s.phys i with
      | some p => .ok (.tile p)
      | none => .error stNoResource
  | 2 =>
    match s.phys (i % 1024) with
    | some p => .ok (.array p (i / 1024))
    | none => .error stNoResource
  | 3 => if i < 32 then .ok (.die i) else .error stBadParam
  | 4 => if i < 256 then .ok (.channel i) else .error stBadParam
  | 5 => if i < 8 then .ok (.cwy i) else .error stBadParam
  | 6 => if i < 4 then .ok (.cxl i) else .error stBadParam
  | 7 => if i < 16 then .ok (.stack i) else .error stBadParam
  | 8 => if i < 1152 then .ok (.tile i) else .error stBadParam
  | 14 => if i = 0 then .ok .residues else .error stBadParam
  | _ => .error stBadParam

/-- Physical tiles of a die, ascending. -/
def tilesOfDie (d : Nat) : List Nat := (List.range numPhys).filter (fun p => dieOf p == d)

/-- The instances of a counter of home kind `h` that a scope contains (R429), in ascending home. -/
def Scope.instances (x : Scope) (h : Home) : List Nat :=
  match x, h with
  | .device, .tile => List.range numPhys ++ [residue]
  | .device, .array => List.range (4 * numPhys) ++ [residue]
  | .device, .die => List.range 32
  | .device, .channel => List.range 256
  | .device, .cwy => List.range 8
  | .device, .cxl => List.range 4
  | .device, .device => [0]
  | .tile p, .tile => [p]
  | .tile p, .array => span (4 * p) 4
  | .array p a, .array => [4 * p + a]
  | .die d, .tile => tilesOfDie d
  | .die d, .array => (tilesOfDie d).flatMap (fun p => span (4 * p) 4)
  | .die d, .channel => span (8 * d) 8
  | .die d, .die => [d]
  | .channel c, .channel => [c]
  | .cwy n, .cwy => [n]
  | .cxl n, .cxl => [n]
  | .residues, .tile => [residue]
  | .residues, .array => [residue]
  | _, _ => []

/-- Adds the counts of a tile that leaves service to the residues and clears them (R424). -/
def State.toResidue (s : State) (p : Nat) : State :=
  let homes (h : Home) : List Nat := (Scope.tile p).instances h
  catalogue.foldl (fun s e =>
    if e.2 = .tile ∨ e.2 = .array then
      (homes e.2).foldl (fun s h =>
        let v := s.counter e.1 h
        if v = 0 then s
        else { s.bump e.1 residue v with
               counters := Sparse.set 0 (s.bump e.1 residue v).counters (counterKey e.1 h) 0 }) s
    else s) s

/-- The position of the failing field for a refusal of a scope at PARAMS bit `pos`. Log entry 49: DEDUCED. -/
def scopeDetail (st pos : Nat) : Nat := if st = stBadParam then pos else 0

def execCtrRead (n : Nat) (s : State) : Result :=
  .next (s.run n 0x0800 (fun c s =>
    match counterHome (c.arg 0), s.scopeOf (c.arg 1) with
    | none, _ => s.final n stBadParam 0 []
    | _, .error st => s.final n st (scopeDetail st 32) []
    | some h, .ok x =>
      let l := x.instances h
      if l = [] then s.final n stBadParam 32 []
      else
        let v := min (l.foldl (fun a i => a + s.counter (c.arg 0) i) 0) (2 ^ 48 - 1)
        s.finalOk n [v % 2 ^ 32, v / 2 ^ 32, l.length, 0]))

/-! ### Snapshots (R431) -/

/-- An entry of a snapshot: COUNTER, SCOPE, PTILE, VALUE. -/
structure SnapEntry where
  code  : Nat
  scope : Nat
  ptile : Nat
  value : Nat
deriving DecidableEq, Repr

def SnapEntry.bits (e : SnapEntry) : Nat := pack [(0, 32, e.code), (32, 16, e.scope), (48, 11, e.ptile), (64, 48, e.value)]

/-- SCOPE and PTILE of an instance (Table 18-3). -/
def State.snapName (s : State) (h : Home) (i : Nat) : Nat × Nat :=
  if i = residue then (0xE000, 0x7FF)
  else match h with
    | .tile => (match s.logical i with
      | some t => (0x1000 + t, i)
      | none => (0x8000 + i, i))
    | .array => (match s.logical (i / 4) with
      | some t => (0x2000 + 1024 * (i % 4) + t, i / 4)
      | none => (0x8000 + i / 4, i / 4))
    | .device => (0, 0x7FF)
    | h => (traceScope h i, 0x7FF)

/-- Adds a value to the entry of the same name, or makes one. -/
def addSnap (l : List SnapEntry) (e : SnapEntry) : List SnapEntry :=
  if l.any (fun f => f.scope == e.scope && f.ptile == e.ptile) then
    l.map (fun f => if f.scope = e.scope ∧ f.ptile = e.ptile then { f with value := min (f.value + e.value) (2 ^ 48 - 1) } else f)
  else l ++ [e]

/-- Inserts before the first entry that is greater by SCOPE and then PTILE. -/
def insertSnap (e : SnapEntry) : List SnapEntry → List SnapEntry
  | [] => [e]
  | f :: l =>
    if e.scope < f.scope ∨ (e.scope = f.scope ∧ e.ptile < f.ptile) then e :: f :: l else f :: insertSnap e l

/-- The entries of one counter, sorted. -/
def State.snapCounter (s : State) (x : Scope) (code : Nat) (h : Home) : List SnapEntry :=
  let es := ((x.instances h).filter (fun i => s.counter code i != 0)).foldl (fun l i =>
    let (sc, pt) := s.snapName h i
    addSnap l ⟨code, sc, pt, s.counter code i⟩) []
  es.foldr insertSnap []

def State.snapshot (s : State) (x : Scope) : List SnapEntry :=
  catalogue.flatMap (fun e => s.snapCounter x e.1 e.2)

def execCtrSnapshot (n : Nat) (s : State) : Result :=
  .next (s.run n 0x0801 (fun c s =>
    match s.scopeOf (c.arg 0) with
    | .error st => s.final n st (scopeDetail st 0) []
    | .ok (.stack _) => s.final n stBadParam 0 []
    | .ok x =>
      let es := s.snapshot x
      let rows := 1 + cdiv es.length 32
      let header := row (withCrcRow (pack [(0, 16, 1), (16, 16, c.arg 0), (32, 32, es.length), (64, 32, s.set.gen),
        (96, 14, s.house)]))
      s.answerRows c (c.arg 1) (header :: rowsOfNat (rows - 1) (packElems 128 (es.map SnapEntry.bits))) [es.length, rows]))

/-! ### Clearing (R426, R432) -/

/-- Sets the instances of a counter in a scope to zero, and says how many they are. -/
def State.clearCounter (s : State) (x : Scope) (code : Nat) (h : Home) : State × Nat :=
  let l := x.instances h
  ({ s with counters := l.foldl (fun m i => Sparse.set 0 m (counterKey code i) 0) s.counters }, l.length)

def execCtrClear (n : Nat) (s : State) : Result :=
  .next (s.run n 0x0802 (fun c s =>
    let all := c.arg 0 == 0xFFFFFFFF
    match s.scopeOf (c.arg 1) with
    | .error st => if !all ∧ (counterHome (c.arg 0)).isNone then s.final n stBadParam 0 [] else s.final n st (scopeDetail st 32) []
    | .ok x =>
      let which := if all then catalogue else catalogue.filter (fun e => e.1 == c.arg 0)
      if which = [] then s.final n stBadParam 0 []
      else
        let (s, k) := which.foldl (fun acc e =>
          let (s, m) := acc.1.clearCounter x e.1 e.2
          (s, acc.2 + m)) (s, 0)
        if k = 0 then s.final n stBadParam 32 [] else s.finalOk n [k]))

end Sys2Proof.Machine
end

