-- ==== Sys2Proof/Machine/Holdings.lean ====
section
/-! DEFINITION. The Holdings flash: its map (Table 16-3), the directory (Table 16-4), writes (R388), and the Inventory image
(R338, Tables 15-1 to 15-3, R341). -/

namespace Sys2Proof.Machine

/-! ### Flash rows -/

def offDir (copy : Nat) : Nat := if copy = 0 then 0 else 0x20000 / 512
def offCerts : Nat := 0x10000 / 512
def offInv (copy : Nat) : Nat := if copy = 0 then 0x100000 / 512 else 0x180000 / 512
def offSettings (slot : Nat) : Nat := if slot = 0 then 0x200000 / 512 else 0x300000 / 512
def offCurator (slot : Nat) : Nat := if slot = 0 then 0x400000 / 512 else 0xC00000 / 512
def offStage (image : Nat) : Nat := if image = 0 then 0x1400000 / 512 else 0x1C00000 / 512
/-- Bytes of the slot, and of the staging region, of an image. -/
def slotBytes (image : Nat) : Nat := if image = 0 then 0x800000 else 0x100000

def Flash.row (f : Flash) (i : Nat) : Row := Sparse.get 0 f.rows i
def Flash.write (f : Flash) (i : Nat) : List Row → Flash
  | [] => f
  | x :: xs => Flash.write { f with rows := Sparse.set 0 f.rows i x } (i + 1) xs

/-- `n` rows of a flash from row `i`. -/
def Flash.read (f : Flash) (i n : Nat) : List Row := (List.range n).map (fun k => f.row (i + k))

def State.flash (s : State) (f : Nat) : Flash := if f = 0 then s.boot.flash0 else s.boot.flash1

def State.setFlash (s : State) (f : Nat) (x : Flash) : State :=
  if f = 0 then { s with boot := { s.boot with flash0 := x } } else { s with boot := { s.boot with flash1 := x } }

/-- The flashes that are used, first flash first (R384). -/
def State.fitted (s : State) : List Nat :=
  (if s.boot.flash0.present then [0] else []) ++ (if s.boot.second then [1] else [])

/-- Rows `i` to `i + n - 1` touch a block that fails to program. -/
def Flash.fails (f : Flash) (i n : Nat) : Bool := f.bad.any (fun b => decide (128 * b < i + n) && decide (i < 128 * b + 128))

/-- A change of `n` rows of one flash from row `i` (R388). `fail` says that the flash reports a failure again when the write
is retried. Answers whether it was made; a failed service strip makes none (R383). -/
def State.editFlash (s : State) (f i n : Nat) (edit : Flash → Flash) (fail : Bool) : State × Bool :=
  if s.boot.stripFailed then (s, false)
  else if fail || (s.flash f).fails i n then (s.count1 0x1E03 0, false)
  else (s.setFlash f (edit (s.flash f)), true)

/-- A change of the Holdings image (R388): the first flash, then the second when it is enabled. A failure of the first flash
abandons the write; one of the second flash alone is only counted. Answers whether it was made. Log entry 69: DEDUCED. -/
def State.holdEdit (s : State) (i n : Nat) (edit : Flash → Flash) (fail1 fail2 : Bool) : State × Bool :=
  let fail (f : Nat) : Bool := if f = 0 then fail1 else fail2
  match s.fitted with
  | [] => (s, false)
  | f :: rest =>
    match s.editFlash f i n edit (fail f) with
    | (s, false) => (s, false)
    | (s, true) => (rest.foldl (fun s g => (s.editFlash g i n edit (fail g)).1) s, true)

/-- Rows written to the Holdings image. -/
def State.holdWrite (s : State) (i : Nat) (rows : List Row) (fail1 fail2 : Bool) : State × Bool :=
  s.holdEdit i rows.length (fun f => f.write i rows) fail1 fail2

/-- Rewrites the directory into the copy not in use, with the next DIR_SEQ (R386). -/
def State.writeDir (s : State) (slot inv : Nat) (fail1 fail2 : Bool) : State × Bool :=
  let (copy, seq) := match s.boot.dir with
    | some (c, q) => (1 - c, (q + 1) % 2 ^ 64)
    | none => (0, 1)
  let (s, ok) := s.holdWrite (offDir copy) [dirRow slot inv seq s.fuses.serial] fail1 fail2
  if ok then ({ s with boot := { s.boot with dir := some (copy, seq), dirSlot := slot, invCopy := inv } }, true) else (s, false)

/-! ### The Inventory image -/

def TileEnt.bits (e : TileEnt) (live : Bool) : Nat :=
  pack [(0, 10, e.logical), (10, 2, e.role), (12, 3, if live then e.state else 0), (16, 3, e.widths.getD 0 0),
    (19, 3, e.widths.getD 1 0), (22, 3, e.widths.getD 2 0), (25, 3, e.widths.getD 3 0), (28, 4, e.cause)]

def Record.bits (r : Record) : Nat :=
  pack [(0, 4, r.type), (4, 1, b2n r.field), (8, 11, r.ptile), (32, 32, r.what), (64, 32, r.loc)]

def State.spares (s : State) : Nat := ((List.range numPhys).filter (fun p => (s.ent p).role == roSpare)).length

/-- The Inventory as rows: live, or as the Holdings copy stores it (R338, R339). -/
def State.invImage (s : State) (live : Bool) : List Row :=
  let presented := (s.inv.tiles.filter (fun e => e.2.role == roPresented)).length
  let n := s.inv.records.length
  let header := row (withCrcRow (pack [(0, 16, 1), (16, 16, s.spares), (32, 16, numTiles - presented), (64, 32, n),
    (96, 32, if live then s.inv.unsaved else 0), (128, 11, s.cur.active.getD 0x7FF), (144, 11, s.cur.standby.getD 0x7FF)]))
  header :: (rowsOfNat 9 (packElems 32 ((List.range numPhys).map (fun p => (s.ent p).bits live))) ++
    rowsOfNat (cdiv n 32) (packElems 128 (s.inv.records.map Record.bits)))

/-- Writes the Inventory into the copy not in use and names it in the directory; then nothing is pending (R341, R388). -/
def State.saveInventory (s : State) (fail1 fail2 : Bool) : State × Bool :=
  let copy := 1 - s.boot.invCopy
  let (s, ok) := s.holdWrite (offInv copy) (s.invImage false) fail1 fail2
  if !ok then (s, false)
  else
    let (s, ok) := s.writeDir s.boot.dirSlot copy fail1 fail2
    if ok then ({ s with inv := { s.inv with unsaved := 0 } }, true) else (s, false)

/-- Curator writes pending records, no later than 60 s after each was made (R341). -/
def execInventoryFlush (fail1 fail2 : Bool) (s : State) : Result :=
  .next (if s.cur.ready ∧ s.inv.unsaved ≠ 0 then (s.saveInventory fail1 fail2).1 else s)

/-- inv.record (R341). A write that the first flash refuses ends with NO_RESOURCE, and the records stay pending. -/
def execInvRecord (n : Nat) (fail1 fail2 : Bool) (s : State) : Result :=
  .next (s.run n 0x0907 (fun _ s =>
    let k := s.inv.unsaved
    if k = 0 then s.finalOk n [0]
    else
      let (s, ok) := s.saveInventory fail1 fail2
      if ok then s.finalOk n [k] else s.refuse n stNoResource))

/-- inv.read (R338). -/
def execInvRead (n : Nat) (s : State) : Result :=
  .next (s.run n 0x0900 (fun c s =>
    let rows := s.invImage true
    if rows.length > c.arg 1 then s.refuse n stLength else s.answerRows c (c.arg 0) rows [rows.length]))

end Sys2Proof.Machine
end

