-- ==== Sys2Proof/Machine/Inventory.lean ====
section
/-! DEFINITION. Tiles that leave and enter service: draining, recalibration, replacement by a spare, vacancy (R342-R350),
rows and pages retired by command (R353, R356), and tiles that do not answer (R349). -/

namespace Sys2Proof.Machine

/-! ### Spares (R347) -/

def absDiff (a b : Nat) : Nat := a - b + (b - a)

/-- Mesh moves between two physical tiles. -/
def moves (p q : Nat) : Nat := absDiff (p % 48) (q % 48) + absDiff (p / 48) (q / 48)

/-- The spare nearest to a tile; ties go to the lowest index. -/
def State.nearestSpare (s : State) (p : Nat) : Option Nat :=
  (List.range numPhys).foldl (fun (m : Option Nat) q =>
    if (s.ent q).role ≠ roSpare then m
    else match m with
      | none => some q
      | some b => if moves p q < moves p b then some q else some b) none

/-- A retired tile's entry (Table 15-2). -/
def retiredEnt (cause : Nat) : TileEnt := { logical := 0, role := roRetired, state := 0, widths := [0, 0, 0, 0], cause := cause }

/-- Rows of a tile some of whose cells are faulty. -/
def Tile.faultRows (t : Tile) : List Nat :=
  t.banks.flatMap (fun e => (e.2.faults.filterMap (fun f => (e.2.holder e.1 f.1).map (rowOf e.1))))

/-- Rows that hold anything in tile `t`, or have faulty cells in `t` or in `u`. -/
def Tile.touched (t u : Tile) : List Nat :=
  t.rows.map (fun e => e.1) ++ (t.faultRows ++ u.faultRows).filter (fun r => !t.rows.any (fun x => x.1 == r))

/-- Every row of tile p is read, and written into tile q as read (R346). A row that is zero, with sound cells in both tiles, is
so afterwards. -/
def State.migrateRows (s : State) (p q : Nat) : State :=
  ((s.tile p).touched (s.tile q)).foldl (fun s r =>
    if Sparse.get false (s.tile p).fresh r then s
    else
      let (s, x) := readRow s p r
      s.updTile q (fun t => t.store r x)) s

/-- What was noted of the tile behind a logical number is done with (R348). -/
def State.forget (s : State) (p : Nat) : State :=
  match s.logical p with
  | some t => { s with inv := { s.inv with failing := s.inv.failing.filter (fun f => f.1 != t) } }
  | none => s

/-- The banks of a tile whose rows are all written as zero: what a write does not clear stays (R203, R349). -/
def Tile.zeroedBanks (t : Tile) : Sparse Bank :=
  Sparse.mapVals Bank.reset t.banks (fun k =>
    { k with faults := Sparse.mapVals [] k.faults permanentOnly, wback := [], late := [] })

/-- A spare takes over the logical number of tile p in state `state`; `keep` says that the tile's state migrates, the
references of its cursors among it (R264). The old tile is retired with its cause, and its counts go to the residue (R346,
R349, R424). Without a spare the number becomes vacant (R350). What was noted of the old tile is done with (R348). Answers the
spare. Log entry 52: DEDUCED. -/
def State.replaceTile (s : State) (p cause state : Nat) (keep : Bool) : State × Option Nat :=
  let e := s.ent p
  let s := if keep then s.closeWindows p else s
  match s.nearestSpare p with
  | none => (((((s.forget p).setEnt p (retiredEnt cause)).toResidue p).updTile p (fun t => { Tile.reset with banks := t.banks })).count1 0x1A03 0, none)
  | some q =>
    let s := s.updTile q (fun t => { Tile.reset with banks := if keep then t.banks else t.zeroedBanks })
    let s := if keep then
        let s := s.migrateRows p q
        let t := s.tile p
        s.updTile q (fun u => { u with
          fresh := t.fresh
          groups := t.groups
          queues := t.queues
          cursors := t.cursors
          refs := t.refs })
      else s
    let s := (s.forget p).setEnt q { (s.ent q) with logical := e.logical, role := roPresented, state := state, cause := 0 }
    let s := ((s.setEnt p (retiredEnt cause)).toResidue p).updTile p (fun t => { Tile.reset with banks := t.banks })
    (s.count1 0x1A02 0, some q)

/-! ### Draining (R343, R348) -/

def Wait.isDrain (w : Wait) (t : Nat) : Bool := w == .drain t

/-- Commands that wait for something of a tile draw their final reply, if a Curator runs to send it; the next one settles them
otherwise (R307). Log entry 53: DEDUCED. -/
def State.answerWaiters (s : State) (w : Wait) (status : Nat) (r : List Nat) : State :=
  if !s.cur.ready then s
  else (s.cur.cmds.filter (fun c => c.wait == w)).foldl (fun s c => s.final c.n status 0 r) s

/-- Curator replaces a tile that it drained for a cause of R348. Log entry 53: DEDUCED. -/
def State.replaceFailing (s : State) (p t : Nat) : State :=
  match s.inv.failing.find? (fun f => f.1 == t) with
  | none => s
  | some f =>
    (s.replaceTile p f.2.1 (if f.2.2 then tsInService else tsDrained) true).1

/-- Every queue of a tile is IDLE or UNCONFIGURED. -/
def State.queuesIdle (s : State) (p : Nat) : Bool := (List.range 8).all (fun q => decide (s.queueState p q ≤ 1))

/-- A draining tile has no launch and idle queues: its windows close and it is DRAINED. A tile that Curator drained to
replace it is replaced then. -/
def execTileDrained (t : Nat) (s : State) : Result :=
  .next (match s.phys t with
    | none => s
    | some p =>
      let e := s.ent p
      if e.state = tsDraining ∧ !s.running p ∧ s.queuesIdle p then
        let s := (s.closeWindows p).setEnt p { e with state := tsDrained }
        (s.answerWaiters (.drain t) stOk []).replaceFailing p t
      else if e.state = tsDrained then s.replaceFailing p t
      else s)

def execInvDrain (n : Nat) (s : State) : Result :=
  .next (s.run n 0x0901 (fun c s =>
    match s.phys (c.arg 0) with
    | none => s.refuse n stNoResource
    | some p =>
      let e := s.ent p
      if e.state = tsDrained then s.finalOk n []
      else if e.state = tsRecal then s.refuse n stConflict
      else (s.setEnt p { e with state := tsDraining }).await n (.drain (c.arg 0))))

/-- Runs `f` on a DRAINED tile; a vacant number is refused with NO_RESOURCE, any other state with CONFLICT. -/
def State.onDrained (s : State) (n t : Nat) (f : Nat → State) : State :=
  match s.phys t with
  | none => s.refuse n stNoResource
  | some p => if (s.ent p).state = tsDrained then f p else s.refuse n stConflict

/-- inv.present. A tile that Curator has noted for replacement (R348) is replaced first, and the spare is presented.
Log entry 53: DEDUCED. -/
def execInvPresent (n : Nat) (s : State) : Result :=
  .next (s.run n 0x0904 (fun c s =>
    s.onDrained n (c.arg 0) (fun p =>
      let s := s.replaceFailing p (c.arg 0)
      match s.phys (c.arg 0) with
      | none => s.refuse n stNoResource
      | some p => (s.setEnt p { (s.ent p) with state := tsInService }).finalOk n [])))

def execInvRetireTile (n : Nat) (s : State) : Result :=
  .next (s.run n 0x0903 (fun c s =>
    s.onDrained n (c.arg 0) (fun p =>
      match s.replaceTile p 6 tsDrained true with
      | (s, some q) => s.finalOk n [q, 1]
      | (s, none) => s.finalOk n [0xFFFFFFFF, 0])))

/-! ### Recalibration (R344) -/

/-- Every accumulator row fresh. -/
def allFresh : Sparse Bool := (span 0x8000 2048).map (fun r => (r, true))

/-- What recalibration leaves of a tile: rows, groups, windows and queue registers are destroyed (R344). Its banks keep
what writes do not clear and its windows their generations; draw cursors and their references stand (R264).
Log entry 52: DEDUCED. -/
def Tile.wiped (t : Tile) : Tile :=
  { t with
    rows := []
    banks := t.zeroedBanks
    fresh := allFresh
    groups := []
    queues := []
    windows := Sparse.mapVals Window.reset t.windows (fun w => { Window.reset with gen := w.gen }) }

/-- Log entry 52: DEDUCED. -/
def execInvRecal (n : Nat) (s : State) : Result :=
  .next (s.run n 0x0902 (fun c s =>
    s.onDrained n (c.arg 0) (fun p =>
      (((s.closeWindows p).setEnt p { (s.ent p) with state := tsRecal }).updTile p Tile.wiped).await n (.recal (c.arg 0)))))

/-- Records the columns newly found bad, in ascending array and column (R352); answers how many. -/
def State.recordColumns (s : State) (p : Nat) (bad : List (Nat × Nat)) : State × Nat :=
  (List.range (4 * 68)).foldl (fun (acc : State × Nat) i =>
    let a := i / 68
    let col := i % 68
    if bad.contains (a, col) ∧ !(acc.1.badColumns p a).contains col then (acc.1.record 1 p (a + 4 * col) 0, acc.2 + 1)
    else acc) (s, 0)

/-- Width code for `b` bad columns, and whether the array is retired (R55, R339). -/
def widthCode (b : Nat) : Nat := (64 - min 64 (4 * ((68 - b) / 4))) / 4
def arrayRetired (b : Nat) : Bool := decide (4 * ((68 - b) / 4) < 48)

/-- Retires the rows that a test found failing (R209); answers how many were given a spare. Log entry 52: DEDUCED. -/
def State.retireRows (s : State) (p : Nat) (rows : List (Nat × Nat)) : State × Nat :=
  rows.foldl (fun (acc : State × Nat) e =>
    let k := (acc.1.tile p).bank e.1
    if Sparse.get 0 k.remap e.2 ≠ 0 ∧ e.2 ≥ bankRows e.1 then acc
    else (acc.1.retireRow p e.1 e.2 0, if (k.nextSpare e.1 e.2).isSome then acc.2 + 1 else acc.2)) (s, 0)

/-- The cause for which a tested tile fails, if it does (Table 15-2). Log entry 52: DEDUCED. -/
def State.testCause (s : State) (p : Nat) (res : TestResult) : Option Nat :=
  if res.katFails ≠ 0 then some 2
  else if (List.range 4).any (fun a => arrayRetired (s.badColumns p a).eraseDups.length) then some 3
  else if ((s.tile p).banks.any (fun e => !e.2.stuck.isEmpty)) then some 4
  else if res.otherBad then some 8
  else none

/-- The tests of a tile end: what they found is recorded and retired, and widths are presented again. -/
def State.applyTests (s : State) (p : Nat) (res : TestResult) : State × Nat × Nat :=
  let s := s.count 0x1203 p res.katFails
  let (s, cols) := s.recordColumns p res.badCols
  let (s, r1) := s.retireRows p res.badRows
  let (s, r2) := s.retireRows p (res.badAcc.map (fun e => (16 + 4 * e.1 + e.2.1, e.2.2)))
  let e := s.ent p
  (s.setEnt p { e with widths := (List.range 4).map (fun a => widthCode (s.badColumns p a).eraseDups.length) }, cols, r1 + r2)

def widthsWord (e : TileEnt) : Nat := e.bits false / 2 ^ 16 % 2 ^ 12

/-- A recalibration ends: the tile returns to DRAINED, or fails and is replaced (R344, R348). -/
def execRecalDone (t : Nat) (res : TestResult) (s : State) : Result :=
  .next (match s.phys t with
    | none => s
    | some p =>
      if (s.ent p).state ≠ tsRecal then s
      else
        let (s, cols, rows) := s.applyTests p res
        let s := s.setEnt p { (s.ent p) with state := tsDrained }
        let s := s.forget p
        let widths := widthsWord (s.ent p)
        match s.testCause p res with
        | none => s.answerWaiters (.recal t) stOk [widths, cols, rows, 0]
        | some cause =>
          let (s, q) := s.replaceTile p cause tsDrained true
          s.answerWaiters (.recal t) stOk [widths, cols, rows, b2n q.isSome])

/-! ### Rows and pages by command (R353, R356) -/

def execInvRetireRow (n : Nat) (s : State) : Result :=
  .next (s.run n 0x0905 (fun c s =>
    let r := c.arg 1
    if !rowExists r then s.final n stBadParam 10 []
    else match s.phys (c.arg 0) with
      | none => s.refuse n stNoResource
      | some p =>
        let (b, br) := bankOf r
        let t := s.tile p
        if ((t.bank b).nextSpare b br).isNone then s.refuse n stNoResource
        else
          let f := senseRow (Sparse.get 0 t.rows r) (t.faultsAt b br)
          (s.retireRow p b br f.data).finalOk n []))

def execInvRelocate (n : Nat) (s : State) : Result :=
  .next (s.run n 0x0906 (fun c s =>
    match decodeAddr (c.arg 0) with
    | some (.hbm r) =>
      if s.room (.hbm r) = 0 then s.refuse n stBadParam
      else
        match s.relocate (hbmChannel r) (hbmPage r) with
        | (s, some f) => s.finalOk n [hbmChannel r, hbmPage r, f]
        | (s, none) => s.refuse n stNoResource
    | _ => s.refuse n stBadParam))

/-! ### Tiles that do not answer (R349) -/

/-- A tile does not answer the mesh: its launch ends CANCELLED and a spare takes its number with every row zero. -/
def State.unreachable (s : State) (p : Nat) : State :=
  let e := s.ent p
  if e.role = roSpare then (s.setEnt p (retiredEnt 7)).toResidue p
  else if e.role ≠ roPresented then s
  else
    let t := e.logical
    let s := match (s.tile p).launch with
      | some la => s.launchDone la.cmd t stCancelled la.rejects la.lost
      | none => s
    let s := ((s.cancelCredits p).replaceTile p 7 tsDrained false).1
    let s := (s.answerWaiters (.drain t) stOk []).answerWaiters (.recal t) stCancelled []
    (List.range 8).foldl (fun s q =>
      (s.answerWaiters (.strGo t q) stCancelled []).answerWaiters (.strCancel t q) stCancelled []) s

end Sys2Proof.Machine
end

