-- ==== Sys2Proof/Machine/Contexts.lean ====
section
/-! DEFINITION. Contexts: saving the logical state of a range of tiles (R372, R373, Tables 15-6 to 15-8), the checks of a
context (R374) and its restore (R375). -/

namespace Sys2Proof.Machine

/-- Rows of a tile block without its group rows (R373). -/
def ctxBlock : Nat := 24582

/-- A tile has a launch running, or a queue neither IDLE nor UNCONFIGURED. -/
def State.tileBusy (s : State) (p : Nat) : Bool := s.running p || !s.queuesIdle p

/-! ### Save -/

/-- The draw cursor of a work list (Table 11-5). -/
def Cursor.bits (c : Cursor) (l : Nat) : Nat :=
  if c.valid then pack [(0, 128, c.last), (128, 1, 1), (129, 2, l), (160, 32, c.draws)] else put 129 2 l

/-- The rows of the open groups, A0 to A3 and g0 to g31 within each. -/
def Tile.groupRowList (t : Tile) : List Nat :=
  (List.range 4).flatMap (fun a => (List.range 32).flatMap (fun g =>
    let x := t.group a g
    if x.isOpen then span (accRow a x.base) x.rows else []))

/-- The window entries of a tile as one row. -/
def Tile.windowRow (t : Tile) : Row := row (packElems 256 (tabulate 16 (fun n => (t.window n).bits)))

/-- The tile header row (Table 15-8). -/
def State.ctxTileHeader (s : State) (p t : Nat) : Row :=
  let x := s.tile p
  row (withCrcRow (packElems 256 (tabulate 8 (fun q => s.queueBits p q)) +
    (packElems 256 (tabulate 4 (fun l => (x.cursor l).bits l))) <<< 2048 +
    pack [(3072, 10, t), (3104, 32, x.groupRowList.length), (3136, 32, crc32c x.windowRow.toNat 512)] +
    (packElems 32 (tabulate 4 (fun a => crc32c (recordRow x a).toNat 512))) <<< 3168))

/-- Reads a list of rows of a tile through the checked path. -/
def State.readList (s : State) (p : Nat) : List Nat → State × List Row
  | [] => (s, [])
  | r :: rs =>
    let (s, x) := readRow s p r
    let (s, xs) := State.readList s p rs
    (s, x :: xs)

/-- The block of a tile (Table 15-7). -/
def State.ctxTile (s : State) (p t : Nat) : State × List Row :=
  let x := s.tile p
  let head := s.ctxTileHeader p t :: x.windowRow :: tabulate 4 (fun a => recordRow x a)
  let (s, rows) := s.readList p (List.range 24576 ++ x.groupRowList)
  (s, head ++ rows)

/-- The first tile that refuses a save: its status. -/
def State.saveFault (s : State) : List Nat → Option Nat
  | [] => none
  | t :: ts =>
    match s.phys t with
    | none => some stNoResource
    | some p => if s.tileBusy p then some stConflict else State.saveFault s ts

/-- Row offsets of the tile blocks. -/
def ctxOffsets (at_ : Nat) : List Nat → List Nat
  | [] => []
  | g :: gs => at_ :: ctxOffsets (at_ + ctxBlock + g) gs

def ctxIndexRows (count : Nat) : Nat := cdiv count 64

/-- The blocks of the tiles, one after another. Log entry 54: DEDUCED. -/
def State.ctxTiles (s : State) : List Nat → State × List Row
  | [] => (s, [])
  | t :: ts =>
    match s.phys t with
    | none => State.ctxTiles s ts
    | some p =>
      let (s, x) := s.ctxTile p t
      let (s, xs) := State.ctxTiles s ts
      (s, x ++ xs)

def State.ctxHeader (s : State) (first count total icrc : Nat) : Row :=
  row (withCrcRow (pack [(0, 16, 1), (16, 10, first), (26, 11, count), (64, 64, total), (128, 384, s.set.digest.toNat),
    (512, 64, s.rng.seed.toNat), (576, 64, s.rng.salt.toNat), (640, 8, algVersion), (656, 14, s.house),
    (672, 32, s.set.gen), (704, 32, icrc)]))

def execCtxSave (n : Nat) (s : State) : Result :=
  .next (s.run n 0x0600 (fun c s =>
    let first := c.arg 0
    let count := c.arg 1
    let tiles := span first count
    match s.saveFault tiles with
    | some st => s.refuse n st
    | none =>
      match decodeAddr (c.arg 2) with
      | none => s.refuse n stBadParam
      | some pl =>
        let groups := tiles.map (fun t => match s.phys t with
          | some p => (s.tile p).groupRowList.length
          | none => 0)
        let k := ctxIndexRows count
        let total := groups.foldl (fun a g => a + ctxBlock + g) (1 + k)
        let index := packElems 64 (ctxOffsets (1 + k) groups)
        if pl.tier > 2 ∨ s.room pl = 0 then s.refuse n stBadParam
        else if total > c.arg 3 ∨ total > s.room pl then s.refuse n stLength
        else
          let header := s.ctxHeader first count total (crc32c index (512 * k))
          let (s, blocks) := s.ctxTiles tiles
          (s.writeResult pl (header :: (rowsOfNat k index ++ blocks))).finalOk n [total]))

/-! ### Checks (Table 15-9) -/

/-- Row `i` of a context at a place; a row past the end of the region reads as zero. Log entry 54: DEDUCED. -/
def State.ctxRow (s : State) (pl : Place) (i : Nat) : State × Nat :=
  if i < s.room pl then
    let (s, x) := s.readPlace (pl.plus i)
    (s, x.toNat)
  else (s, 0)

/-- A saved queue register has a field that is reserved and not zero, or outside its range (Table 10-1). -/
def ctxQueueBad (q x : Nat) : Bool :=
  queueFieldsBad q x || decide (fld x 40 8 ≠ 0 ∨ fld x 52 12 ≠ 0 ∨ fld x 89 7 ≠ 0 ∨ fld x 103 1 ≠ 0 ∨ fld x 132 4 ≠ 0 ∨
    fld x 184 72 ≠ 0 ∨ fld x 0 16 + cdiv (fld x 16 13) 8 > 0x6000 ∨ (fld x 64 12 ≠ 0 ∧ fld x 64 12 ≥ fld x 16 13))

/-- A saved window entry has a reserved field that is not zero, or was open with fields that no open takes (Table 09-2). -/
def ctxWindowBad (x : Nat) : Bool :=
  decide (fld x 59 5 ≠ 0 ∨ fld x 193 7 ≠ 0 ∨ fld x 224 32 ≠ 0) || (bit x 192 && !entryOk (x % 2 ^ 192))

/-- The open groups of four record rows: (array, group, record). -/
def ctxRecords (recs : List Nat) : List (Nat × Nat × Nat) :=
  ((List.range 4).flatMap (fun a => (List.range 32).map (fun g => (a, g, elem 128 (recs.getD a 0) g)))).filter
    (fun e => bit e.2.2 0)

/-- The groups of a context stand side by side in a store, each as an adopt at its own BASE would have it, with the ROWS of its
shape (R143, R145, R153): `t` holds the ones before. -/
def ctxGroupsOk (t : Tile) : List (Nat × Nat × Nat) → Bool
  | [] => true
  | (a, g, x) :: rest =>
    match adoptFields g (fld x 4 9) x with
    | none => false
    | some (f, anchor, pos) =>
      openCheck t a f none == 0 && fld x 64 10 == groupRows f.grows f.gcols f.fmt &&
      ctxGroupsOk (t.setGroup a g
        { isOpen := true
          mode := true
          fmt := f.fmt
          base := f.base
          bias := false
          grows := f.grows
          gcols := f.gcols
          anchor := anchor
          positions := pos
          owner := none }) rest

/-- A saved group record has a reserved bit set (Table 07-3). -/
def ctxRecordBad (x : Nat) : Bool := decide (fld x 14 2 ≠ 0) || bit x 31 || decide (fld x 42 6 ≠ 0 ∨ fld x 74 22 ≠ 0)

/-- A tile block holds a reserved field that is not zero, or a value outside its field's range (R9, R10, Table 15-8): its header
`h`, its window row `w` and its record rows `recs`. Log entry 54: DEDUCED. -/
def ctxFieldsBad (h w : Nat) (recs : List Nat) : Bool :=
  decide (fld h 3082 22 ≠ 0 ∨ fld h 3296 768 ≠ 0) ||
  (List.range 8).any (fun q => ctxQueueBad q (elem 256 h q)) ||
  (List.range 4).any (fun l =>
    let x := elem 256 (fld h 2048 1024) l
    decide (fld x 129 2 ≠ l ∨ fld x 131 29 ≠ 0 ∨ fld x 192 64 ≠ 0)) ||
  (List.range 16).any (fun n => ctxWindowBad (elem 256 w n)) ||
  recs.any (fun r => (List.range 32).any (fun g => ctxRecordBad (elem 128 r g))) || !ctxGroupsOk Tile.reset (ctxRecords recs)

/-- What is wrong with the tile block at row `off`: BAD_CRC for its CRC, WIN_CRC or a GRP_CRC, BAD_PARAM for its fields. -/
def State.ctxTileFault (s : State) (pl : Place) (off : Nat) : State × Option Nat :=
  let (s, h) := s.ctxRow pl off
  let (s, w) := s.ctxRow pl (off + 1)
  let (s, g0) := s.ctxRow pl (off + 2)
  let (s, g1) := s.ctxRow pl (off + 3)
  let (s, g2) := s.ctxRow pl (off + 4)
  let (s, g3) := s.ctxRow pl (off + 5)
  if !crcOkRow h ∨ fld h 3136 32 ≠ crc32c w 512 ∨
      !([g0, g1, g2, g3].zipIdx.all (fun g => fld h (3168 + 32 * g.2) 32 == crc32c g.1 512)) then (s, some stBadCrc)
  else if ctxFieldsBad h w [g0, g1, g2, g3] then (s, some stBadParam)
  else (s, none)

/-- The first tile block with a fault: status and DETAIL, which is its position for a CRC (check 5) and 0 for a field
(check 2). -/
def State.ctxBadTile (s : State) (pl : Place) : Nat → List Nat → State × Option (Nat × Nat)
  | _, [] => (s, none)
  | i, off :: offs =>
    match s.ctxTileFault pl off with
    | (s, none) => State.ctxBadTile s pl (i + 1) offs
    | (s, some st) => (s, some (st, if st = stBadCrc then i else 0))

/-- What the checks 1 to 7 find. -/
structure CtxCheck where
  status  : Nat
  detail  : Nat
  total   : Nat
  offsets : List Nat
deriving DecidableEq, Repr

/-- A check that failed in a context whose header gives TOTAL_ROWS as `total`. -/
def CtxCheck.bad (status detail total : Nat) : CtxCheck := ⟨status, detail, total, []⟩

/-- Checks 1 to 7; `name` is the range that a restore names. A SRC_ADDR from which no header can be read fails check 4.
Log entry 54: DEDUCED. -/
def State.checkContext (s : State) (src rows : Nat) (name : Option (Nat × Nat)) : State × CtxCheck :=
  match s.srcPlace? src with
  | none => (s, .bad stBadParam 0 0)
  | some pl =>
    let (s, h) := s.ctxRow pl 0
    let count := fld h 26 11
    let total := fld h 64 64
    if !crcOkRow h then (s, .bad stBadCrc 0 total)
    else if fld h 0 16 ≠ 1 ∨ fld h 37 27 ≠ 0 ∨ fld h 648 8 ≠ 0 ∨ fld h 670 2 ≠ 0 ∨ fld h 736 3328 ≠ 0 then
      (s, .bad stBadParam 0 total)
    else if (match name with
        | some (f, c) => decide (f ≠ fld h 16 10 ∨ c ≠ count)
        | none => decide (count = 0 ∨ count > 1024)) then (s, .bad stBadParam 0 total)
    else if rows < total ∨ total > s.room pl then (s, .bad stLength 0 total)
    else
      let k := ctxIndexRows count
      let (s, idx) := s.readPlaces (pl.plus 1) k
      let index := packElems 4096 idx
      if crc32c index (512 * k) ≠ fld h 704 32 then (s, .bad stBadCrc 0 total)
      else
        let offs := tabulate count (fun i => elem 64 index i)
        match s.ctxBadTile pl 0 offs with
        | (s, some (st, i)) => (s, .bad st i total)
        | (s, none) =>
          if fld h 128 384 ≠ s.set.digest.toNat then (s, .bad stDigest 0 total)
          else if fld h 512 64 ≠ s.rng.seed.toNat ∨ fld h 576 64 ≠ s.rng.salt.toNat ∨ fld h 640 8 ≠ algVersion then
            (s, .bad stConflict 0 total)
          else (s, ⟨stOk, 0, total, offs⟩)

def execCtxCheck (n : Nat) (s : State) : Result :=
  .next (s.run n 0x0602 (fun c s =>
    let (s, k) := s.checkContext (c.arg 0) (c.arg 1) none
    s.final n k.status k.detail [lo32 k.total]))

/-! ### Restore (R375) -/

/-- Check 8: the first tile that refuses, as status and position. -/
def State.restoreFault (s : State) : Nat → List Nat → Option (Nat × Nat)
  | _, [] => none
  | i, t :: ts =>
    match s.phys t with
    | none => some (stNoResource, i)
    | some p =>
      if (s.ent p).state ≠ tsDrained ∧ (s.ent p).state ≠ tsInService then some (stNoResource, i)
      else if s.tileBusy p then some (stConflict, i)
      else State.restoreFault s (i + 1) ts

/-- Copies row `i` onward of a context to the rows of a list, until a source row is not backed. -/
def State.ctxCopy (s : State) (pl : Place) (p : Nat) : Nat → List Nat → State × Bool
  | _, [] => (s, true)
  | i, r :: rs =>
    if i < s.room pl then
      let (s, x) := s.readPlace (pl.plus i)
      State.ctxCopy (writeRow s p r x) pl p (i + 1) rs
    else (s, false)

/-- Rows of the store that a record's group occupies. -/
def ctxRecordRows (e : Nat × Nat × Nat) : List Nat := span (accRow e.1 (fld e.2.2 4 9)) (fld e.2.2 64 10)

/-- A saved cursor as the reference of R264. -/
def ctxCursor (x : Nat) : Cursor :=
  if bit x 128 then { last := fld x 0 128, valid := true, draws := fld x 160 32 } else Cursor.reset

/-- Restores one tile from its block at row `off`; a source row that is not backed ends it there (R248).
Log entry 54: DEDUCED. -/
def State.restoreTile (s : State) (pl : Place) (p off : Nat) : State × Bool :=
  let s := s.closeWindows p
  let s := s.updTile p (fun t => { t with groups := [] })
  let (s, h) := s.ctxRow pl off
  let (s, w) := s.ctxRow pl (off + 1)
  let (s, recs) := (List.range 4).foldl (fun (acc : State × List Nat) a =>
    let (s, x) := acc.1.ctxRow pl (off + 2 + a)
    (s, acc.2 ++ [x])) (s, [])
  let gs := ctxRecords recs
  match s.ctxCopy pl p (off + 6) (List.range 24576 ++ gs.flatMap ctxRecordRows) with
  | (s, false) => (s, false)
  | (s, true) =>
    let s := gs.foldl (fun s e => (s.adopt p e.1 e.2.1 (fld e.2.2 4 9) e.2.2 none).1) s
    let s := (List.range 8).foldl (fun s q =>
      let x := elem 256 h q
      s.updQueue p q (fun u => { u.write x with head := fld x 64 12 })) s
    let s := (List.range 16).foldl (fun s n =>
      let x := elem 256 w n
      if bit x 192 then (s.openWindow p n (x % 2 ^ 192)).1 else s) s
    (s.updTile p (fun t => { t with
      refs := (List.range 4).foldl (fun m l =>
        Sparse.set Cursor.reset m l (ctxCursor (elem 256 (fld h 2048 1024) l))) t.refs }), true)

def State.restoreTiles (s : State) (pl : Place) : List (Nat × Nat) → State × Bool
  | [] => (s, true)
  | (t, off) :: l =>
    match s.phys t with
    | none => State.restoreTiles s pl l
    | some p =>
      match s.restoreTile pl p off with
      | (s, true) => State.restoreTiles s pl l
      | (s, false) => (s, false)

def execCtxRestore (n : Nat) (s : State) : Result :=
  .next (s.run n 0x0601 (fun c s =>
    let tiles := span (c.arg 0) (c.arg 1)
    let (s, k) := s.checkContext (c.arg 2) (c.arg 3) (some (c.arg 0, c.arg 1))
    if k.status ≠ stOk then s.final n k.status k.detail []
    else match s.restoreFault 0 tiles with
      | some (st, i) => s.final n st i []
      | none =>
        match s.srcPlace? (c.arg 2) with
        | none => s.refuse n stBadParam
        | some pl =>
          match s.restoreTiles pl (tiles.zip k.offsets) with
          | (s, true) => s.finalOk n []
          | (s, false) => s.refuse n stBadParam))

end Sys2Proof.Machine
end

