-- ==== Sys2Proof/Machine/Peers.lean ====
section
/-! DEFINITION. What replies and losses of peers do to the commands this device has sent (R242, R302, R321, R328), and takeovers
(R368-R370). -/

namespace Sys2Proof.Machine

/-! ### Takeover: steps of takeover.assume (R369) -/

/-- The checks that takeover.offer and takeover.assume share: the subscription, or the status of the refusal (R368). -/
def State.offer (s : State) (f : Nat) : Except Nat Sub :=
  match s.sub (f / 64) with
  | none => .error stBadParam
  | some u =>
    if !u.valid then .error stNoResource
    else if fld u.record.toNat 160 128 ≠ s.digest128 then .error stDigest
    else .ok u

/-- INSTANCE of a subscription's record. -/
def Sub.instance_ (u : Sub) : Nat := fld u.record.toNat 128 32

/-- Copies the complete generation of a subscription into this device's own cast extents, row by row. -/
def State.copyShard (s : State) (u : Sub) : State :=
  match decodeAddr u.dst with
  | none => s
  | some pl =>
    (List.range (min u.shardRows s.shardRows)).foldl (fun s i =>
      match extentRow s.castExtents i with
      | none => s
      | some a =>
        match s.dstPlace? a with
        | none => s
        | some dst =>
          let (s, x) := s.readPlace (pl.plus (1 + u.compGen * u.shardRows + i))
          s.writePlace dst x) s

/-- The rank houses of every group that contains house `f`, each once. -/
def State.groupHouses (s : State) (f : Nat) : List Nat :=
  ((List.range 64).flatMap (fun g =>
    let l := (List.range (s.groupSize g)).map (fun r => s.rankHouse g r)
    if l.contains f then l else [])).eraseDups.filter (fun h => h != f)

/-- Steps 4 and 5: the subscription to F's quarter ends, and the command is answered where it still waits. -/
def State.finishAssume (s : State) (a : Assume) : State :=
  let s := { s with cur := { s.cur with assuming := none } }
  let s := if (s.sub (a.old / 64)).isSome then s.endSub (a.old / 64) else s
  (s.count1 0x1C01 0).finalOk a.cmd [a.inst, a.acked]

/-- Sends announcements while fewer than 64 are outstanding; when none is left and none outstanding, the takeover ends. -/
def State.announceNext (s : State) : Nat → State
  | 0 => s
  | fuel + 1 =>
    match s.cur.assuming with
    | none => s
    | some a =>
      match a.left with
      | [] => if a.out = 0 then s.finishAssume a else s
      | h :: rest =>
        if a.out ≥ 64 then s
        else
          let (s, st) := s.sendPeer h 0x0A12 (pack [(0, 14, a.old), (14, 14, a.new)]) (.announce a.cmd)
          let out := if st = stOk then a.out + 1 else a.out
          State.announceNext { s with cur := { s.cur with assuming := some { a with left := rest, out := out } } } fuel

/-- An announcement has ended. -/
def State.announced (s : State) (ok : Bool) : State :=
  match s.cur.assuming with
  | none => s
  | some a =>
    let a := { a with out := a.out - 1, acked := if ok then a.acked + 1 else a.acked }
    ({ s with cur := { s.cur with assuming := some a } }).announceNext (a.left.length + 1)

/-! ### The end of a request that waited on a conversation -/

/-- A grant that carries no generation of its own: the account keeps its GEN and ROWS. -/
def State.failGrant (s : State) (p : Nat) (k : AcctKey) (status : Nat) : State :=
  match (s.tile p).acct k with
  | none => s
  | some a => s.grant p k ⟨status, a.gen, a.rows, 0, 0⟩

/-- A sent Peer command will draw no reply, for a cause with a status. A lost probe is answered by the caller. -/
def State.endPurpose (s : State) (u : Purpose) (status : Nat) : State :=
  match u with
  | .credit p house wtile win cur => s.failGrant p ⟨house, wtile, cur, win⟩ status
  | .collUp id _ => s.abortColl id stCancelled false
  | .subscribe (some n) q => (s.dropSub q).final n status 0 []
  | .subscribe none _ => s
  | .unsubscribe _ => s
  | .probe n _ => s.final n status 0 []
  | .announce _ => s.announced false
  | .castCredit h => s.castRefused h

/-- Tiles whose TALLY a conversation still holds. -/
def Conv.tallies (c : Conv) : List Nat := (c.unacked ++ c.waiting).filterMap (fun k => k.tally)

/-- The TALLYs of a conversation to house `h` will not be acknowledged any more. Log entry 59: DEDUCED. -/
def State.dropTallies (s : State) (h : Nat) (tiles : List Nat) : State :=
  tiles.foldl (fun s p => (s.updTile p (fun t =>
    { t with accounts := t.accounts.map (fun a => if a.house = h then { a with tallyOut := false } else a) })).freeAccts p) s

/-- Resets a conversation: its numbering starts again, its frames and its store are discarded, and a subscription to
that house must be renewed (R321, R328, R366). Answers the commands that waited on it. Log entry 59: DEDUCED. -/
def State.resetConv (s : State) (p h : Nat) : State × List Sent :=
  let mine := s.cur.sent.filter (fun x => x.port == p && x.house == h)
  match s.conv p h with
  | none => (s, mine)
  | some c =>
    let s := (s.updConv p h (fun _ => Conv.fresh p h)).stopTimers (Timer.ofConv p h)
    let s := { s with
      cur := { s.cur with sent := s.cur.sent.filter (fun x => !(x.port == p && x.house == h)) },
      casts := { s.casts with subs := s.casts.subs.map (fun (u : Sub) =>
        if u.quarter * 64 = h then { u with live := false } else u) } }
    ((s.dropTallies h c.tallies).startTimer (.idle p h) ((s.cport p).die p), mine)

/-- Resets every conversation with a house, and ends what waited with CANCELLED (R328). Log entry 59: DEDUCED. -/
def State.resetHouse (s : State) (h : Nat) : State :=
  (s.convs.filter (fun c => c.house == h)).foldl (fun s c =>
    let (s, l) := s.resetConv c.port h
    l.foldl (fun s x => s.endPurpose x.purpose stCancelled) s) s

/-- The edit of R328; none when NEW_HOUSE has no valid entry. -/
def State.applyAnnounce (s : State) (old new : Nat) : Option State :=
  let e := Sparse.get 0 s.set.routes new
  if !bit e 3 then none
  else
    let routes := Sparse.set 0 (Sparse.set 0 s.set.routes old e) new (e % 8)
    let s := { s with set := { s.set with routes := routes } }
    some ((s.resetHouse old).resetHouse new)

/-- The status with which takeover.assume is refused after the probe (R369). -/
def State.assumeStatus (s : State) (expect : Nat) : Nat :=
  if expect ≠ s.set.gen then stStale else if s.anyLaunch then stConflict else stOk

/-- Steps 1 to 3 of R369. The device starts in its new house with no leaves (R366). -/
def State.assume (s : State) (c : Cmd) (f : Nat) : State :=
  match s.offer f with
  | .error st => s.refuse c.n st
  | .ok u =>
    let st := s.assumeStatus (c.arg 1)
    if st ≠ stOk then s.refuse c.n st
    else
      let inst := u.instance_
      let former := s.house
      let s := s.copyShard u
      let s := if isPeerPort c.port then s.finalOk c.n [inst, 0] else s
      let s := { s with set := { s.set with house := f }, casts := { s.casts with leaves := [] } }
      let s := (s.convs.map (fun v => v.house)).eraseDups.foldl (fun s h => s.resetHouse h) s
      let a : Assume := { cmd := c.n, old := f, new := former, inst := inst, acked := 0, out := 0, left := s.groupHouses f }
      ({ s with cur := { s.cur with assuming := some a } }).announceNext (a.left.length + 1)

/-- The probe of a house has ended: it is lost, or it has replied (R368). Log entry 59: DEDUCED. -/
def State.probed (s : State) (n : Nat) (assume lost : Bool) : State :=
  match s.cmd n with
  | none => s
  | some c =>
    if !lost then s.refuse n stConflict
    else if assume then s.assume c (c.arg 0)
    else match s.offer (c.arg 0) with
      | .ok u => s.finalOk n [u.instance_, s.set.gen]
      | .error st => s.refuse n st

/-- Sends the probe, after the checks of R368. -/
def State.probe (s : State) (n f : Nat) (assume : Bool) : State :=
  match s.offer f with
  | .error st => s.refuse n st
  | .ok _ =>
    let tag := s.cur.nextTag
    let (s, st) := s.sendPeer f 0x0100 0 (.probe n assume)
    if st ≠ stOk then s.refuse n st else s.await n (.peer tag)

def execTakeoverOffer (n : Nat) (s : State) : Result := .next (s.run n 0x0A10 (fun c s => s.probe n (c.arg 0) false))
def execTakeoverAssume (n : Nat) (s : State) : Result := .next (s.run n 0x0A11 (fun c s => s.probe n (c.arg 0) true))

/-- takeover.announce: applied as it starts; one that came as a Peer command was applied at receipt (R370). -/
def execTakeoverAnnounce (n : Nat) (s : State) : Result :=
  .next (s.run n 0x0A12 (fun c s =>
    if isPeerPort c.port then s.finalOk n []
    else match s.applyAnnounce (c.arg 0) (c.arg 1) with
      | none => s.refuse n stBadParam
      | some s => s.finalOk n []))

/-! ### Lost peers (R321) -/

/-- What a lost peer does to a command sent to it. -/
def State.losePurpose (s : State) (u : Purpose) : State :=
  match u with
  | .probe n assume => s.probed n assume true
  | u => s.endPurpose u stNoResource

/-- A peer is lost: the Curator is notified, its conversation is reset, every request that waited on it ends, and its collectives
abort. -/
def State.losePeer (s : State) (p h : Nat) : State :=
  let s := (s.count1 0x180A p).note (.peerLost p h)
  let (s, l) := s.resetConv p h
  (l.foldl (fun s x => s.losePurpose x.purpose) s).abortWith h

/-- 12 us of the oldest frame that is not acknowledged pass (R277, R320). -/
def State.ripenRetry (s : State) (p h : Nat) (c : Conv) : State :=
  match c.unacked with
  | k :: _ => s.expire (.retry p h k.seq) 12000
  | [] => s

/-- A frame has been resent 15 times, and 12 us have passed since without acknowledgement. -/
def execPeerLost (p house : Nat) (s : State) : Result :=
  .next (match s.conv p house with
    | none => s
    | some c =>
      if c.unacked.any (fun k => decide (15 ≤ k.resends)) then (s.ripenRetry p house c).losePeer p house else s)

/-- Every frame of a conversation that is not acknowledged is sent again, oldest first (R320). -/
def State.resend (s : State) (p h : Nat) : State :=
  match s.conv p h with
  | none => s
  | some c =>
    let s := s.updConv p h (fun c => { c with unacked := c.unacked.map (fun k => { k with resends := k.resends + 1 }) })
    c.unacked.foldl (fun s k => s.driveKept p h k) s

/-- 12 us without acknowledgement: every unacknowledged frame is sent again (R320). -/
def execControlRetry (p house : Nat) (s : State) : Result :=
  .next (match s.conv p house with
    | none => s
    | some c =>
      if c.unacked = [] ∨ c.unacked.any (fun k => decide (15 ≤ k.resends)) then s
      else ((s.ripenRetry p house c).resend p house).count1 0x1809 p)

/-- 10 ms with nothing unacknowledged and no frame (R318). -/
def execConversationFree (p house : Nat) (s : State) : Result :=
  .next (match s.conv p house with
    | none => s
    | some c =>
      if c.unacked = [] ∧ c.waiting = [] then
        let s := (s.expire (.idle p house) 10000000).stopTimers (Timer.ofConv p house)
        { s with convs := s.convs.filter (fun d => !(d.port == p && d.house == house)) }
      else s)

/-! ### Replies to commands of this device -/

/-- A reply to a command this device has sent, from house `h` on port `p`. -/
def State.peerReply (s : State) (p h : Nat) (r : Nat) : State :=
  let tag := fld r 0 16
  let status := fld r 16 8
  let detail := fld r 24 16
  let more := bit r 41
  let r0 := fld r 64 32
  let r1 := fld r 96 32
  match s.cur.sent.find? (fun x => x.tag == tag && x.port == p && x.house == h && x.opcode == fld r 48 16) with
  | none => s
  | some x =>
    let drop (s : State) : State :=
      { s with cur := { s.cur with sent := s.cur.sent.filter (fun y => !(y.tag == tag && y.port == p && y.house == h)) } }
    let grant : Grant := ⟨status, r1 % 256, fld r1 8 16, r0 % 65536, r0 / 65536⟩
    match x.purpose with
    | .probe n a => (drop s).probed n a false
    | u =>
      if status = stAccepted then s
      else
        let s := if more then s else drop s
        match u with
        | .credit q house wtile win cur =>
          if status = stOk then s.grant q ⟨house, wtile, cur, win⟩ grant else s.failGrant q ⟨house, wtile, cur, win⟩ status
        | .castCredit leaf => s.castGrant leaf grant
        | .collUp id phase => if more then s else s.parentReplied id phase status
        | .subscribe n q => if more then s else s.subscribed n q status detail (r0 + r1 * 2 ^ 32)
        | .announce _ => if more then s else s.announced (status == stOk)
        | _ => s

end Sys2Proof.Machine
end

