-- ==== Sys2Proof/Machine/Fabric.lean ====
section
/-! DEFINITION. Frames that arrive on Causeway: the checks of R311, R314 and R317, digests (R332), acknowledgements and sequence
(R318-R320), and the meaning of each frame type (R316, R324, R329, R370). -/

namespace Sys2Proof.Machine

/-! ### The checks of a frame -/

/-- A port can receive: one of its lanes is trained. -/
def State.receives (s : State) (p : Nat) : Bool :=
  decide (p < 8) && decide (4 ≤ s.boot.phase) && ((s.cport p).usable false || (s.cport p).usable true)

/-- Bytes of the header of a frame type. -/
def hdrLen (type : Nat) : Nat := if type = ftData then 32 else 48

/-- The Ethernet conditions of R314 under which a frame is dropped. Log entry 61: DEDUCED. -/
def State.ethDrops (s : State) (p : Nat) (f : RxFrame) : Bool :=
  match f.mac with
  | none => true
  | some m =>
    m.vlan || bit m.da.toNat 40 || (m.da != macAddr s.house p false && m.da != macAddr s.house p true) ||
    m.etherType.toNat != s.live keyEtherType || decide (f.bytes.length < hdrLen (fld (natOfBytes (f.bytes.take 1)) 0 4))

/-- BODY_LEN has the value of Table 14-5 for the type. Log entry 61: DEDUCED. -/
def bodyLenOk (type n : Nat) : Bool :=
  if type = ftCmd then decide (64 ≤ n) && decide (n ≤ 64 + 4096)
  else if type = ftRpl then n == 32
  else if type = ftTally then n == 16
  else if type = ftLane then n == 8
  else n == 0

/-- A reserved bit of a body that Table 14-5 lays out is set. -/
def bodyReserved (type b : Nat) : Bool :=
  if type = ftTally then fld b 23 9 != 0 || fld b 64 64 != 0
  else if type = ftLane then fld b 1 63 != 0
  else false

/-- Check 1 of R317 fails. `h` is the frame as a number, `n` its bytes. Log entry 61: DEDUCED. -/
def hdrBad (h n : Nat) : Bool :=
  let type := fld h 0 4
  fld h 4 4 != 1 || decide (type > 6) || fld h 36 28 != 0 || decide (n < hdrLen type) ||
  (if type = ftData then
    fld h 224 32 != crc32c h 28 || fld h 117 11 != 0 || fld h 176 48 != 0 || decide (fld h 102 4 = 0) ||
    decide (fld h 102 4 > 8) || decide (n ≠ 32 + 512 * fld h 102 4)
  else
    fld h 352 32 != crc32c h 44 || fld h 97 15 != 0 || fld h 256 96 != 0 || !bodyLenOk type (fld h 112 16) ||
    bodyReserved type (fld h 384 128))

/-- The counter that a received frame is dropped with, by the checks in order; 0 when it passes. -/
def State.rxDrop (s : State) (p : Nat) (f : RxFrame) : Nat :=
  let h := natOfBytes (f.bytes.take 64)
  let type := fld h 0 4
  let body := f.bytes.drop 48
  let len := fld h 112 16
  if s.ethMode p ∧ s.ethDrops p f then 0x1803
  else if hdrBad h f.bytes.length then 0x1805
  else if fld h 8 14 ≠ s.house ∧ !(!s.ethMode p && (type == ftHello || type == ftLane)) then 0x1806
  else if type ≠ ftData ∧ len > 0 ∧
      (body.length ≠ len + 4 ∨ natOfBytes (body.drop len) ≠ crc32cBytes (body.take len)) then 0x1807
  else 0

/-- A frame that passed its checks. -/
structure Rx where
  hdr    : Nat
  src    : Nat
  seq    : Nat
  digest : Nat
  body   : Bytes
deriving DecidableEq, Repr

/-- Receipt of a frame of type `want`: the FEC counts, each codeword by itself, the FCS count, the checks, and LAST_PEER. A frame of another type that
passes leaves the state as it was. Log entry 1: DESIGN CHOICE; log entry 61: DEDUCED. -/
def State.rx (s : State) (p : Nat) (f : RxFrame) (want : Nat) : State × Option Rx :=
  let code := s.rxDrop p f
  let h := natOfBytes (f.bytes.take 48)
  if !s.receives p ∨ (code = 0 ∧ fld h 0 4 ≠ want) then (s, none)
  else
    let s := (s.countEach 0x1801 p f.fecCorrected).countEach 0x1802 p f.fecUncorrectable
    let fcs := match f.mac with
      | some m => !m.fcsOk
      | none => false
    let s := s.countIf (s.ethMode p && fcs) 0x1804 p
    if code ≠ 0 then (s.count1 code p, none)
    else
      let src := fld h 22 14
      let s := s.setPort p { (s.cport p) with lastPeer := src }
      let body := if want = ftData then f.bytes.drop 32 else (f.bytes.drop 48).take (fld h 112 16)
      (s, some { hdr := h, src := src, seq := fld h 64 16, digest := fld h 128 128, body := body })

/-! ### Control frames -/

/-- The digest of a control frame is kept and compared (R332). -/
def State.noteDigest (s : State) (p digest : Nat) : State :=
  let s := s.setPort p { (s.cport p) with digest := some (BitVec.ofNat 128 digest) }
  s.countIf (digest != s.digest128) 0x180E p

/-- A TALLY frame kept for tile `p` is about this account. -/
def Kept.about (k : Kept) (p : Nat) (a : Account) : Bool :=
  let b := natOfBytes k.body
  k.tally == some p && fld b 0 10 == a.tile && fld b 10 4 == a.window && bit b 22 == a.curator

/-- A TALLY has been acknowledged: its account has none left when no other is kept (R325). Log entry 46: DEDUCED. -/
def State.tallyAcked (s : State) (port h : Nat) (k : Kept) : State :=
  match k.tally with
  | none => s
  | some p =>
    let left := match s.conv port h with
      | some c => c.unacked ++ c.waiting
      | none => []
    (s.updTile p (fun t => { t with accounts := t.accounts.map (fun a =>
      if a.house = h ∧ k.about p a ∧ !left.any (fun l => l.about p a) then { a with tallyOut := false } else a) })).freeAccts p

/-- A cumulative acknowledgement (R319, R320): the frames it covers are kept no longer. -/
def State.ackUpTo (s : State) (p h ack : Nat) : State :=
  match s.conv p h with
  | none => s
  | some c =>
    let isAcked (k : Kept) : Bool := decide ((ack + 65536 - k.seq) % 65536 < 32768)
    let gone := c.unacked.filter isAcked
    if gone = [] then s
    else
      let s := s.updConv p h (fun c => { c with unacked := c.unacked.filter (fun k => !isAcked k) })
      let s := s.stopTimers (Timer.retryOf p h (fun q => gone.any (fun k => k.seq == q)))
      let s := gone.foldl (fun s k => s.tallyAcked p h k) s
      s.pumpConv p h 64

/-- What every control frame does: its digest, its conversation's time and its acknowledgement. -/
def State.rxControl (s : State) (p : Nat) (x : Rx) : State :=
  let s := (s.noteDigest p x.digest).touchConv p x.src
  if bit x.hdr 96 then s.ackUpTo p x.src (fld x.hdr 80 16) else s

/-- A control frame that acknowledges has been driven to a house on a port. -/
def drivenAck (p h : Nat) (l : List Tx) : Bool :=
  l.any (fun t => match t with
    | .frame q _ _ b =>
      let x := natOfBytes (b.take 16)
      q == p && fld x 0 4 != ftData && fld x 8 14 == h && bit x 96
    | _ => false)

/-- An accepted sequenced frame is acknowledged: by what has gone back since state `s`, or by an ACK frame (R320). -/
def State.ensureAck (s s' : State) (p h : Nat) : State :=
  if (s'.wayTo p h).any (fun q => drivenAck q h (s'.tx.drop s.tx.length)) then s' else s'.sendAck p h

/-- A sequenced frame: accepted when it is the next, acknowledged again when it is a duplicate, dropped otherwise
(R318, R319). `again` is what a duplicate draws beside its acknowledgement. -/
def State.rxSeq (s : State) (p : Nat) (x : Rx) (again act : State → State) : State :=
  let (s, ok) := s.openConv p x.src
  if !ok then s
  else match s.conv p x.src with
    | none => s
    | some c =>
      let s := s.touchConv p x.src
      if x.seq = c.rxNext then
        let s := s.updConv p x.src (fun c => { c with rxNext := (c.rxNext + 1) % 65536, rxCount := min 64 (c.rxCount + 1) })
        s.ensureAck (act s) p x.src
      else if (c.rxNext + 65535 - x.seq) % 65536 < c.rxCount then s.ensureAck (again s) p x.src
      else s.count1 0x1808 p

/-- The replies kept for a command are sent again (R297). Log entry 62: DEDUCED. -/
def State.answerAgain (s : State) (p h seq : Nat) : State :=
  match s.conv p h with
  | none => s
  | some c =>
    match c.store.find? (fun e => e.1 == seq) with
    | none => s
    | some e => e.2.foldl (fun s r => (s.sendSeq p h ftRpl (replyBytes r) none).1) s

/-- A takeover.announce that passes receipt is applied before its receipt reply (R370). The conversation that carried it
goes on from the frame's number. Answers whether it is refused. Log entry 60: DEDUCED. -/
def State.announceAtReceipt (s : State) (p : Nat) (x : Rx) (hdr : BitVec 512) (payload : Bytes) : State × Bool :=
  let ok := (s.receiptStatus (.cwy p) hdr payload x.digest).1 = stOk
  if hOpcode hdr ≠ 0x0A12 ∨ !ok ∨ (paramFault 0x0A12 [pa 14, pa 14] hdr).isSome then (s, false)
  else match s.applyAnnounce (hParam hdr 0 14) (hParam hdr 14 14) with
    | none => (s, true)
    | some s =>
      (s.updConv p x.src (fun c => { c with rxNext := (x.seq + 1) % 65536, rxCount := max 1 c.rxCount }), false)

def State.acceptCmd (s : State) (p : Nat) (x : Rx) : State :=
  let hdr := BitVec.ofNat 512 (natOfBytes (x.body.take 64))
  let payload := x.body.drop 64
  let (s, refused) := s.announceAtReceipt p x hdr payload
  if refused then
    ((s.openStore (.cwy p) x.src x.seq).count1 0x1601 0).sendReply (.cwy p) x.src x.seq .receipt
      (mkReply hdr stBadParam 0 false [])
  else s.receive (.cwy p) x.src x.seq hdr payload x.digest

def execCmdFrame (p : Nat) (f : RxFrame) (s : State) : Result :=
  .next (match s.rx p f ftCmd with
    | (s, none) => s
    | (s, some x) => (s.rxControl p x).rxSeq p x (fun s => s.answerAgain p x.src x.seq) (fun s => s.acceptCmd p x))

/-- A reply whose own CRC fails is not acted on. Log entry 61: DEDUCED. -/
def State.acceptRpl (s : State) (p : Nat) (x : Rx) : State :=
  let r := natOfBytes x.body
  if fld r 224 32 = crc32c r 28 then s.peerReply p x.src r else s

def execRplFrame (p : Nat) (f : RxFrame) (s : State) : Result :=
  .next (match s.rx p f ftRpl with
    | (s, none) => s
    | (s, some x) => (s.rxControl p x).rxSeq p x id (fun s => s.acceptRpl p x))

def execAckFrame (p : Nat) (f : RxFrame) (s : State) : Result :=
  .next (match s.rx p f ftAck with
    | (s, none) => s
    | (s, some x) => s.rxControl p x)

def execHelloFrame (p : Nat) (f : RxFrame) (s : State) : Result :=
  .next (match s.rx p f ftHello with
    | (s, none) => s
    | (s, some x) => s.rxControl p x)

/-! ### TALLY and data frames (R324) -/

/-- The ledger entry that a TALLY of a house is for. Its body names no source tile; among several entries the one is
free. Log entry 3: DESIGN CHOICE. -/
def State.tallySource (s : State) (w : Window) (h : Nat) : State × Option Ledger :=
  match w.ledger.filter (fun e => e.remote && srcHouse e.src == h) with
  | [] => (s, none)
  | [e] => (s, some e)
  | l =>
    let (s, n) := s.draw
    (s, l[Config.choice n % l.length]?)

/-- Log entry 39: DEDUCED. -/
def State.acceptTally (s : State) (p : Nat) (x : Rx) : State :=
  let b := natOfBytes x.body
  let n := fld b 10 4
  let cur := bit b 22
  let sent := fld b 32 32
  match s.owner (fld b 0 10) cur with
  | none => s.countIf (!cur) 0x0E09 0
  | some q =>
    let w := s.win q n
    if !w.isOpen ∨ w.gen ≠ fld b 14 8 then s
    else match s.tallySource w x.src with
      | (s, none) => s
      | (s, some e) =>
        let d := shortfall sent 0 e.received
        let s := if d = 0 then s else s.settleLost q n e.src d p
        let s := s.setWin q n ((s.win q n).updEntry e.src (fun e => { e with tally := sent }))
        if cur ∧ n = 15 then
          (if d = 0 then s else s.castLost x.src).castTally x.src
        else s

def execTallyFrame (p : Nat) (f : RxFrame) (s : State) : Result :=
  .next (match s.rx p f ftTally with
    | (s, none) => s
    | (s, some x) => (s.rxControl p x).rxSeq p x id (fun s => s.acceptTally p x))

/-- The rows of a data frame reach window `n` of physical tile `q`, one by one. -/
def State.frameArrives (s : State) (q n src gen off : Nat) (cast : Option Nat) : List Row → State
  | [] => s
  | r :: rs =>
    let (s, ok) := s.arriveRow q ⟨some n, false, src, gen, off, r⟩
    let s := match cast with
      | some h => if ok then s.castRow h off r else s
      | none => s
    State.frameArrives s q n src gen (off + 1) cast rs

/-- RECEIVED of a source advances by `k`. Log entry 40: DEDUCED. -/
def State.advance (s : State) (q n src k : Nat) : State :=
  s.setWin q n ((s.win q n).updEntry src (fun e => { e with received := (e.received + k) % 2 ^ 32 }))

/-- A data frame: its rows meet the window's checks, and the die of the window's tile sets their deadline from REMAIN. A row that
names a vacant tile is counted (R222). Log entry 40: DEDUCED; log entry 41: DEDUCED. -/
def State.acceptData (s : State) (p : Nat) (x : Rx) : State :=
  let h := x.hdr
  let n := fld h 74 4
  let gen := fld h 78 8
  let rows := fld h 102 4
  let cur := bit h 116
  let src := srcWord (fld h 106 10) x.src
  let s := s.touchConv p x.src
  match s.owner (fld h 64 10) cur with
  | none => if cur then s else s.countEach 0x0E09 0 rows
  | some q =>
    let w := s.win q n
    let cast := if cur ∧ n = 15 then some x.src else none
    let s := match w.entryOf src with
      | none => s
      | some e =>
        if !w.isOpen ∨ w.gen ≠ gen then s
        else
          let d := shortfall (fld h 128 32) rows e.received
          let s := if d = 0 then s else s.settleLost q n src d p
          let s := if d ≠ 0 ∧ cast.isSome then s.castLost x.src else s
          s.advance q n src rows
    let s := s.setDue q n (fld h 160 16)
    s.frameArrives q n src gen (fld h 86 16) cast (rowsOfNat rows (natOfBytes x.body))

def execDataFrame (p : Nat) (f : RxFrame) (s : State) : Result :=
  .next (match s.rx p f ftData with
    | (s, none) => s
    | (s, some x) => s.acceptData p x)

end Sys2Proof.Machine
end

