-- ==== Sys2Proof/Machine/Links.lean ====
section
/-! DEFINITION. Lanes and ports of Causeway (R309, R312, R329-R333, R357) and the CXL expanders (R359). -/

namespace Sys2Proof.Machine

/-! ### Lanes -/

/-- Houses that a link frame on a port goes to: 0 in direct mode, each peer with an open conversation in Ethernet mode
(R331). Log entry 63: DEDUCED. -/
def State.linkPeers (s : State) (p : Nat) : List Nat :=
  if s.ethMode p then (s.convs.filter (fun c => c.port == p)).map (fun c => c.house) else [0]

/-- Drives a HELLO or LANE frame on a lane. -/
def State.linkFrame (s : State) (p : Nat) (spare : Bool) (type : Nat) (body : Bytes) : State :=
  (s.linkPeers p).foldl (fun s h =>
    s.driveLane p spare h (ctlFrame type h s.house 0 0 false s.digest128 body)) s

/-- A lane is trained, or is not. The lane in use, trained again, has its lock. -/
def CwyPort.setUp (c : CwyPort) (spare up : Bool) : CwyPort :=
  let c := { c with lost := c.lost && !(up && spare == c.onSpare) }
  if spare then { c with spareUp := up } else { c with workUp := up }

/-- The number that `testing` holds for a lane. -/
def laneNo (spare : Bool) : Nat := if spare then 2 else 1

/-- The other lane is in use; the lane left is tested where it had lost its lock (R357). -/
def CwyPort.other (c : CwyPort) : CwyPort :=
  { c with
    onSpare := !c.onSpare
    testing := if c.lost then laneNo c.onSpare else c.testing
    lost := false }

/-- Moves a port's traffic to its other lane: a LANE frame goes on that lane, and the switch is counted (R329). -/
def State.switchLane (s : State) (p : Nat) : State :=
  let to_ := !(s.cport p).onSpare
  let s := s.linkFrame p to_ ftLane (bytesOfNat 8 (b2n to_))
  (s.movePort p (s.cport p).other).count1 0x180D p

/-- Curator moves a port whose lane in use cannot carry traffic to the other lane, when that can. -/
def State.moveIfDown (s : State) (p : Nat) : State :=
  let c := s.cport p
  if s.cur.ready ∧ !c.up ∧ c.usable (!c.onSpare) then s.switchLane p else s

/-- The lane in use is left for errors and tested (R357), when the other lane can take its traffic. -/
def State.leaveLane (s : State) (p : Nat) : State :=
  let c := s.cport p
  let left := c.onSpare
  if s.cur.ready ∧ c.usable (!left) then
    let s := s.setPort p { (c.setUp left false) with testing := laneNo left }
    s.switchLane p
  else s

/-- The lane in use loses its lock. Where the other cannot take its traffic, the switch waits until it can, and is one for errors
then too (R329, R357). -/
def execLaneLockLoss (p : Nat) (s : State) : Result :=
  .next (let c := s.cport p
    if p < 8 ∧ c.up then
      let s' := s.leaveLane p
      let k := (s'.cport p).setUp c.onSpare false
      s'.setPort p { k with lost := k.lost || k.onSpare == c.onSpare }
    else s)

def execLaneBerCheck (p bad : Nat) (s : State) : Result :=
  .next (if p < 8 ∧ (s.cport p).up ∧ bad > s.live keySpareBer then s.leaveLane p else s)

def execLaneTestDone (p : Nat) (lane : Bool) (clean : Bool) (s : State) : Result :=
  .next (let c := s.cport p
    if c.testing ≠ laneNo lane then s
    else if clean then (s.setPort p { (c.setUp lane true) with testing := 0 }).moveIfDown p
    else
      let c : CwyPort := if lane then { c with spareGone := true } else { c with workGone := true }
      ((s.setPort p { c with testing := 0 }).count1 0x180F p).record 5 0 (p + 8 * b2n lane) 0)

/-- A lane finishes training at run time. -/
def execPortTrainingDone (p : Nat) (lane : Bool) (s : State) : Result :=
  .next (let c := s.cport p
    let gone := if lane then c.spareGone else c.workGone
    if p < 8 ∧ 4 ≤ s.boot.phase ∧ !gone ∧ c.testing ≠ laneNo lane then
      (s.setPort p (c.setUp lane true)).moveIfDown p
    else s)

/-- Log entry 63: DEDUCED. -/
def execLaneFrame (p : Nat) (f : RxFrame) (s : State) : Result :=
  .next (match s.rx p f ftLane with
    | (s, none) => s
    | (s, some x) =>
      let s := s.rxControl p x
      let to_ := bit (natOfBytes x.body) 0
      let c := s.cport p
      if c.onSpare = to_ ∨ !c.usable to_ then s
      else (s.movePort p c.other).count1 0x180D p)

/-- A lane that has sent no control frame for 100 us sends a HELLO (R331). -/
def execHelloSend (p : Nat) (lane : Bool) (s : State) : Result :=
  .next (if p < 8 ∧ 4 ≤ s.boot.phase ∧ (s.cport p).usable lane then
      (s.expire (.hello p lane) 100000).linkFrame p lane ftHello []
    else s)

/-! ### Commands -/

def boolDigest (d : Option (BitVec 128)) (own : Nat) : Bool :=
  match d with
  | some x => x.toNat == own
  | none => false

/-- RESULT0 of link.status for a Causeway port (Table 14-2). -/
def State.linkBits (s : State) (p : Nat) : Nat :=
  let c := s.cport p
  pack [(0, 3, c.state), (3, 1, b2n (s.ethMode p)), (4, 1, b2n c.quarantine), (5, 1, b2n (boolDigest c.digest s.digest128)),
    (6, 1, b2n (c.usable (!c.onSpare))), (7, 1, b2n (c.workGone || c.spareGone))]

/-- Log entry 63: DEDUCED. -/
def execLinkStatus (n : Nat) (s : State) : Result :=
  .next (s.run n 0x0D00 (fun c s =>
    let p := c.arg 0
    if p < 8 then
      s.finalOk n [s.linkBits p, (s.convs.filter (fun v => v.port == p)).length, (s.cport p).lastPeer, 0]
    else
      let up := if p = 8 then s.arc.linkUp else s.mem.expanders.any (fun e => e.port == p - 9)
      s.finalOk n [if up then 2 else 0, if up then 16 else 0, 0, 0]))

def execLinkSpare (n : Nat) (s : State) : Result :=
  .next (s.run n 0x0D01 (fun c s =>
    let p := c.arg 0
    let to_ := c.arg 1 == 1
    let k := s.cport p
    if k.onSpare = to_ then s.finalOk n []
    else if (if to_ then k.spareGone else k.workGone) then s.refuse n stNoResource
    else if !k.usable to_ then s.refuse n stConflict
    else (s.switchLane p).finalOk n []))

def execLinkQuarantine (n : Nat) (s : State) : Result :=
  .next (s.run n 0x0D02 (fun c s =>
    (s.setPort (c.arg 0) { (s.cport (c.arg 0)) with quarantine := c.arg 1 == 1 }).finalOk n []))

def execLinkDigest (n : Nat) (s : State) : Result :=
  .next (s.run n 0x0D03 (fun c s =>
    let d := match (s.cport (c.arg 0)).digest with
      | some x => x.toNat
      | none => 0
    s.finalOk n (tabulate 4 (fun i => fld d (32 * i) 32))))

/-! ### CXL expanders (R359) -/

/-- A device address in an expander's range. -/
def Expander.holds (e : Expander) (pl : Option Place) : Bool :=
  match pl with
  | some (.cxl x r) => x == e.port && inSpan e.base e.rows r
  | _ => false

/-- The outstanding reads of a queue from a range that has gone are abandoned: their rows are found unbacked.
Log entry 64: DEDUCED. -/
def State.abandonReads (s : State) (p q : Nat) (e : Expander) : State :=
  let u := s.queue p q
  (u.missing.filter (fun m => match u.started[m.1]? with
    | some st => e.holds (st.srcPlace m.2)
    | none => false)).foldl (fun s m => s.rowReturns p q m.1 m.2 .clean) s

/-- A descriptor's writes to the range that are not complete are not written; it ends before the first of them.
Log entry 64: DEDUCED. -/
def State.abandonWrites (s : State) (p q j : Nat) (e : Expander) : State :=
  match (s.queue p q).started[j]? with
  | none => s
  | some st =>
    match st.out.findIdx? (fun o => e.holds (decodeAddr o.1)) with
    | none => s
    | some k =>
      (s.count1 0x0F05 p).updStarted p q j (fun st =>
        ({ st with out := st.out.take k, writes := st.done + k } : Started).fail (st.done + k) stBadParam)

/-- Every stream of a tile meets the loss of an expander. -/
def State.loseRange (s : State) (p : Nat) (e : Expander) : State :=
  ((List.range 8).foldl (fun s q =>
    let s := s.abandonReads p q e
    (List.range (s.queue p q).started.length).foldl (fun s j => s.abandonWrites p q j e) s) s).pump p

/-- Log entry 64: DEDUCED. -/
def execCxlLinkDown (x e : Nat) (s : State) : Result :=
  .next (match s.mem.expanders.find? (fun d => d.port == x && d.id == e) with
    | none => s
    | some d =>
      let s := { s with mem := { s.mem with
        expanders := s.mem.expanders.filter (fun y => y != d),
        cxl := Sparse.filterKeys s.mem.cxl (fun k => !(k / 2 ^ 33 == x && inSpan d.base d.rows (k % 2 ^ 33)))
        poison := Sparse.filterKeys s.mem.poison (fun k => !(k / 2 ^ 33 == x && inSpan d.base d.rows (k % 2 ^ 33))) } }
      let s := s.count1 0x1102 x
      (s.tiles.map (fun t => t.1)).foldl (fun s p => s.loseRange p d) s)

/-- The lowest unbacked range of a port with room for `rows`. -/
def lowestFree (l : List Expander) (x rows : Nat) : Option Nat :=
  let mine := l.filter (fun e => e.port == x)
  let fits (b : Nat) : Bool := decide (b + rows ≤ 2 ^ 33) && !mine.any (fun e => extentsMeet b rows 1 e.base e.rows 1)
  (0 :: mine.map (fun e => e.base + e.rows)).foldl (fun (m : Option Nat) b =>
    if !fits b then m
    else match m with
      | none => some b
      | some a => some (min a b)) none

/-- A port with a failed PHY block takes none (R18, R358). -/
def execCxlExpanderAttach (x e rows : Nat) (s : State) : Result :=
  .next (if x ≥ 4 ∨ rows = 0 ∨ !s.cur.ready ∨ s.phyFailed (x + 1) ∨
      s.mem.expanders.any (fun d => d.port == x && d.id == e) then s
    else match lowestFree s.mem.expanders x rows with
      | none => s
      | some b =>
        { s with mem := { s.mem with expanders := s.mem.expanders ++ [{ port := x, id := e, base := b, rows := rows }] } })

end Sys2Proof.Machine
end

