-- ==== Sys2Proof/Machine/Tensors.lean ====
section
/-! DEFINITION. Sparse tensors: the descriptor and its checks (R89-R92, Table 04-2, Table 04-3), pattern lines and packed
positions (R80-R87, R93), the gather of blocks (R78, R82, R83), and writing an output tensor (R109). -/

namespace Sys2Proof.Machine

/-! ### The descriptor -/

structure Tensor where
  bitmap   : Nat
  values   : Nat
  scales   : Nat
  index    : Nat
  kdim     : Nat
  odim     : Nat
  nnzb     : Nat
  fmt      : Nat
  hasIndex : Bool
  paired   : Bool
  anchor   : Int
deriving DecidableEq, Repr

def tensorOf (x : Nat) : Tensor :=
  { bitmap := fld x 0 64, values := fld x 64 64, scales := fld x 128 64, index := fld x 192 64, kdim := fld x 256 24,
    odim := fld x 280 24, nnzb := fld x 304 32, fmt := fld x 336 4, hasIndex := bit x 340, paired := bit x 341,
    anchor := signed 16 (fld x 344 16) }

/-- K-blocks, O-blocks, bitmap rows of a pattern line, bitmap rows (R77, R80). -/
def Tensor.kb (t : Tensor) : Nat := cdiv t.kdim 32
def Tensor.ob (t : Tensor) : Nat := cdiv t.odim 8
def Tensor.lineRows (t : Tensor) : Nat := cdiv t.kb 4096
def Tensor.rb (t : Tensor) : Nat := t.ob * t.lineRows

def Tensor.empty (t : Tensor) : Bool := t.kdim == 0 || t.odim == 0

/-- Rows of the values, scale and index regions. -/
def Tensor.valueRows (t : Tensor) : Nat := if t.empty then 0 else cdiv (t.nnzb * blockBytes t.fmt) 512
def Tensor.scaleRows (t : Tensor) : Nat := if t.empty ∨ !isMx t.fmt then 0 else cdiv t.nnzb 64
def Tensor.indexRows (t : Tensor) : Nat := if t.hasIndex then cdiv (cdiv t.rb 64) 128 else 0

/-- The regions that have at least one row: address and rows. -/
def Tensor.regions (t : Tensor) : List (Nat × Nat) :=
  [(t.bitmap, t.rb), (t.values, t.valueRows), (t.scales, t.scaleRows), (t.index, t.indexRows)].filter (fun r => r.2 != 0)

/-- The address names a present place that a descriptor of the role may use: an operand none of tier 0x4, an output none
of tier 0x4 and none of another tile (Table 04-3, check 7). -/
def State.regionOk (s : State) (own : Nat) (out : Bool) (a : Nat) : Bool :=
  match decodeAddr a with
  | none => false
  | some pl => pl.tier != 4 && s.room pl != 0 && (!out || (match pl with
      | .scr t _ => t == own
      | _ => true))

/-- The region runs past the end of the region it starts in. -/
def State.regionPasses (s : State) (r : Nat × Nat) : Bool :=
  match decodeAddr r.1 with
  | none => false
  | some pl => decide (s.room pl < r.2)

/-- Two regions share a row. -/
def regionsMeet (a b : Nat × Nat) : Bool :=
  match decodeAddr a.1, decodeAddr b.1 with
  | some (.comp x), some (.comp y) => extentsMeet x a.2 1 y b.2 1
  | some x, some y => placesMeet x a.2 1 y b.2 1
  | _, _ => false

/-- Two different regions of a list share a row. -/
def anyMeet : List (Nat × Nat) → Bool
  | [] => false
  | r :: l => l.any (regionsMeet r) || anyMeet l

/-- The checks of Table 04-3 on the 512 bits `x` for the tile whose logical number is `own`: 0, or the number of the
first that fails. -/
def State.tensorCheck (s : State) (own : Nat) (out : Bool) (fmtOk : Nat → Bool) (x : Nat) : Nat :=
  let t := tensorOf x
  if !crcOk64 x then 1
  else if fld x 342 2 ≠ 0 ∨ fld x 360 120 ≠ 0 ∨ t.fmt > 10 then 2
  else if !fmtOk t.fmt then 3
  else if (!isMx t.fmt ∧ t.scales ≠ 0) ∨ (!t.hasIndex ∧ t.index ≠ 0) ∨ (t.fmt ≠ 10 ∧ t.anchor ≠ 0) then 4
  else if (t.empty ∧ t.nnzb ≠ 0) ∨ t.nnzb > t.ob * t.kb then 5
  else if t.paired ∧ (t.kb % 2 ≠ 0 ∨ 2 * t.nnzb ≠ t.ob * t.kb) then 6
  else if t.regions.any (fun r => !s.regionOk own out r.1) then 7
  else if t.regions.any s.regionPasses then 8
  else if anyMeet t.regions then 9
  else 0

def tensorStatus : Nat → Nat
  | 0 => stOk
  | 1 => stBadCrc
  | 8 => stLength
  | 9 => stConflict
  | _ => stBadParam

/-- DETAIL of a failing check of a descriptor role (Table 08-8). Log entry 33: DEDUCED. -/
def roleDetail (role check : Nat) : Nat := 256 * role + check

/-- The 512 bits that a 24-bit descriptor reference names (R115), each row read once; none when the reference names no
scratchpad row. -/
def State.readRef (s : State) (p : Nat) (ref : Option Nat) : State × Option Nat :=
  match ref with
  | none => (s, none)
  | some v =>
    if fld v 16 5 ≠ 0 ∨ fld v 0 16 ≥ 0x6000 then (s, none)
    else
      let (s, r) := readRow s p (fld v 0 16)
      (s, some (elem 512 r.toNat (fld v 21 3)))

/-! ### Patterns and packed positions -/

/-- Bits of bitmap row `r` that are not padding (R81). -/
def Tensor.valid (t : Tensor) (r : Nat) : Nat := min 4096 (t.kb - r % t.lineRows * 4096)

/-- Packed position of the first present block of each bitmap row, by counting from row 0, or from the row-offset index
entry of its group of 64 rows (R82, R84, R85). `rows` are the masked rows from row `r` on. -/
def rowBases (entry : Nat → Option Nat) : List Nat → Nat → Nat → List Nat
  | [], _, _ => []
  | x :: xs, r, acc =>
    let base := if r % 64 = 0 then (entry (r / 64)).getD acc else acc
    base :: rowBases entry xs (r + 1) (base + popcount 4096 x)

/-- The bitmap plane of an operand, for the combines that its operation makes: where it lies, its masked rows as read, the
packed position at which each row starts, the present bits of its line before each row, and NNZB. -/
structure Plane where
  place  : Option Place
  per    : Nat
  rows   : List Nat
  bases  : List Nat
  before : List Nat
  nnzb   : Nat
deriving DecidableEq, Repr

def Plane.none : Plane := { place := .none, per := 0, rows := [], bases := [], before := [], nnzb := 0 }

/-- What an operation uses of an operand: its lines as present blocks in ascending K with their packed positions. -/
structure Operand where
  fmt    : Nat
  kb     : Nat
  ob     : Nat
  kdim   : Nat
  odim   : Nat
  dense  : Bool
  paired : Bool
  /-- Present blocks of each line: (K-block, packed position). -/
  lines  : List (List (Nat × Nat))
  /-- Every pair of every line conforms (R87), by line. -/
  conf   : List Bool
  values : Option Place
  scales : Option Place
  plane  : Plane
  /-- The line and the ranks, first and count, that a dispatch item leaves of the operand (R129). -/
  rank   : Option (Nat × Nat × Nat)
deriving DecidableEq, Repr

/-- What reading a bitmap found: a set padding bit, and a position that reaches NNZB (R81, R93). -/
structure PatFlags where
  pad     : Bool
  overrun : Bool
deriving DecidableEq, Repr

def PatFlags.or (a b : PatFlags) : PatFlags := ⟨a.pad || b.pad, a.overrun || b.overrun⟩
def PatFlags.none : PatFlags := ⟨false, false⟩

/-- Every K-adjacent pair of a line holds exactly one present block (R87). -/
def lineConforms (kb : Nat) (x : Nat) : Bool := (List.range (kb / 2)).all (fun t => bit x (2 * t) != bit x (2 * t + 1))

/-- The present blocks of line `l` from the masked rows and their bases. -/
def Tensor.lineOf (t : Tensor) (rows bases : List Nat) (l : Nat) : List (Nat × Nat) :=
  (List.range t.lineRows).flatMap (fun g =>
    let r := l * t.lineRows + g
    let x := rows.getD r 0
    ((setBits (t.valid r) x).zipIdx (bases.getD r 0)).map (fun e => (4096 * g + e.1, e.2)))

/-- The present blocks of a line as the bits of one number. -/
def presentBits (l : List (Nat × Nat)) : Nat := l.foldl (fun a e => a + 2 ^ e.1) 0

/-- Reads the bitmap plane and the index of a tensor. A block that R93 withholds is absent, for the pairs of R87 and the ranks of
an item too; a mask has no positions, so none of its bits is withheld (R113). -/
def State.readPattern (s : State) (t : Tensor) (mask : Bool) : State × Operand × PatFlags :=
  let (s, raw) := match decodeAddr t.bitmap with
    | some pl => if t.rb = 0 then (s, []) else s.readPlaces pl t.rb
    | none => (s, [])
  let (s, ix) := match decodeAddr t.index with
    | some pl => if t.indexRows = 0 then (s, []) else s.readPlaces pl t.indexRows
    | none => (s, [])
  let rows := raw.zipIdx.map (fun e => e.1 % 2 ^ t.valid e.2)
  let entry : Nat → Option Nat := fun i => if t.hasIndex then some (elem 32 (ix.getD (i / 128) 0) (i % 128)) else none
  let bases := rowBases entry rows 0 0
  let lines := tabulate t.ob (t.lineOf rows bases)
  let keep := if mask then lines else lines.map (fun l => l.filter (fun e => e.2 < t.nnzb))
  (s, { fmt := t.fmt, kb := t.kb, ob := t.ob, kdim := t.kdim, odim := t.odim, dense := false, paired := t.paired,
        lines := keep, conf := keep.map (fun l => lineConforms t.kb (presentBits l)),
        values := decodeAddr t.values, scales := decodeAddr t.scales,
        plane := { place := decodeAddr t.bitmap, per := t.lineRows, rows := rows, bases := bases,
                   before := rows.zipIdx.map (fun e =>
                     ((((rows.zip bases).take e.2).drop (e.2 - e.2 % t.lineRows)).map (fun x =>
                       if mask then popcount 4096 x.1 else min (popcount 4096 x.1) (t.nnzb - x.2))).foldl (· + ·) 0),
                   nnzb := t.nnzb },
        rank := none },
   ⟨raw != rows, decide (keep ≠ lines)⟩)

/-- A dense operand of O x K from row `r` of logical tile `own` (R173): every block present. -/
def denseOperand (own r fmt o k : Nat) : Operand :=
  let kb := cdiv k 32
  { fmt := fmt, kb := kb, ob := cdiv o 8, kdim := k, odim := o, dense := true, paired := false,
    lines := tabulate (cdiv o 8) (fun l => tabulate kb (fun i => (i, l * kb + i))), conf := [],
    values := some (.scr own r), scales := some (.scr own (r + denseRows fmt o k)), plane := Plane.none, rank := none }

/-- The packed position of K-block `kb` in line `l`. -/
def Operand.pos (o : Operand) (l kb : Nat) : Option Nat :=
  ((o.lines.getD l []).find? (fun e => e.1 == kb)).map (fun e => e.2)

def Operand.hasBlock (o : Operand) (l kb : Nat) : Bool := (o.pos l kb).isSome

/-- A match entry of a product (Table 05-2): K-block, position in A, position in B, and the number of the combine within the
operation modulo 65,536, 0 where no combine was made. -/
structure MatchEntry where
  kblk : Nat
  posA : Nat
  posB : Nat
  pair : Nat
deriving DecidableEq, Repr

/-- Positions of row `r` of an operand's plane, of which a combine received `x`: the packed position of bit `i`, when the
block is not withheld (R93) and its rank lies in the item's range (R129). -/
def Operand.bitPos (o : Operand) (l r x i : Nat) : Option Nat :=
  let pos := o.plane.bases.getD r 0 + popcount i x
  let rank := o.plane.before.getD r 0 + popcount i x
  let inRank : Bool := match o.rank with
    | some (line, first, count) => line == l && decide (first ≤ rank) && decide (rank < first + count)
    | none => true
  if inRank ∧ pos < o.plane.nnzb then some pos else none

/-- The entries of lines `la` and `lb` from what the operands' bitmaps said when they were read. -/
def plainEntries (a b : Operand) (la lb : Nat) : List MatchEntry :=
  (b.lines.getD lb []).filterMap (fun e => (a.pos la e.1).map (fun q => ⟨e.1, q, e.2, 0⟩))

/-- Combines line `la` of A with line `lb` of B, row by row; `x` and `y` are the rows as they were received (R101). A dense
operand has no bitmap, so nothing is combined. `own` is the tile's logical number, `n` the number of the line pair's first
combine within the operation. -/
def State.matchLines (s : State) (p own : Nat) (a b : Operand) (la lb n : Nat) : State × List MatchEntry :=
  if a.dense ∨ b.dense then (s, plainEntries a b la lb)
  else
    loop a.plane.per (s, []) (fun acc g =>
      let ra := la * a.plane.per + g
      let rb := lb * b.plane.per + g
      let (s, x, y) := acc.1.combinePlaces p own (a.plane.place.map (fun q => q.plus ra)) (b.plane.place.map (fun q => q.plus rb))
        (a.plane.rows.getD ra 0) (b.plane.rows.getD rb 0)
      (s, acc.2 ++ (setBits (min 4096 (a.kb - 4096 * g)) (x &&& y)).filterMap (fun i =>
        match a.bitPos la ra x i, b.bitPos lb rb y i with
        | some u, some v => some ⟨4096 * g + i, u, v, (n + g) % 65536⟩
        | _, _ => none)))

/-- Combines that a line pair takes (R101). -/
def lineCombines (a b : Operand) : Nat := if a.dense ∨ b.dense then 0 else a.plane.per

def Operand.count (o : Operand) : Nat := (o.lines.map List.length).foldl (· + ·) 0

/-! ### Blocks -/

/-- The rows that `n` bytes from byte `off` of a region lie in. -/
def rowsOfBytes (off n : Nat) : List Nat := if n = 0 then [] else span (off / 512) ((off + n - 1) / 512 - off / 512 + 1)

/-- Reads the named rows of a region once each, in ascending order. Log entry 24: DESIGN CHOICE. -/
def State.readSome (s : State) (pl : Place) : List Nat → State × Sparse Nat
  | [] => (s, [])
  | r :: rs =>
    let (s, x) := s.readPlace (pl.plus r)
    let (s, m) := State.readSome s pl rs
    (s, (r, x.toNat) :: m)

/-- The number at bytes `off .. off + n - 1` of a region of which these rows were read. -/
def bytesFrom (m : Sparse Nat) (off n : Nat) : Nat :=
  let rs := rowsOfBytes off n
  fld (packElems 4096 (rs.map (fun r => Sparse.get 0 m r))) (8 * (off % 512)) (8 * n)

/-- Numbers in ascending order without repeats. -/
def sortNats (l : List Nat) : List Nat :=
  let insert (x : Nat) (m : List Nat) : List Nat := (m.takeWhile (· < x)) ++ x :: (m.dropWhile (· ≤ x))
  l.foldl (fun m x => insert x m) []

/-- The gathered blocks of an operand by packed position: the block's bytes and its eight scales (R82, R83). -/
abbrev Blocks := Sparse (Nat × Nat)

/-- Log entry 24: DESIGN CHOICE. -/
def State.gather (s : State) (o : Operand) (positions : List Nat) : State × Blocks :=
  let ps := sortNats positions
  let bb := blockBytes o.fmt
  match o.values with
  | none => (s, [])
  | some pl =>
    let (s, m) := s.readSome pl (sortNats (ps.flatMap (fun q => rowsOfBytes (q * bb) bb)))
    let (s, k) := match o.scales with
      | some sl => if isMx o.fmt then s.readSome sl (sortNats (ps.map (fun q => q / 64))) else (s, [])
      | none => (s, [])
    (s, ps.map (fun q => (q, bytesFrom m (q * bb) bb, bytesFrom k (8 * q) 8)))

/-- Bits of the element at line `j`, position `e` of a gathered block. -/
def blockRaw (fmt : Nat) (b : Nat × Nat) (j e : Nat) : Nat := fld b.1 (8 * (j * lineBytes fmt) + fmtBits fmt * e) (fmtBits fmt)

/-- Its value. -/
def blockVal (fmt : Nat) (b : Nat × Nat) (j e : Nat) : Val :=
  let v := elemVal fmt (blockRaw fmt b j e)
  if isMx fmt then scaleVal (fld b.2 (8 * j) 8) v else v

/-! ### Writing an output tensor (R109) -/

/-- Writes the bitmap plane, the packed values and the index of an output tensor. `lines` gives the present K-blocks of
each line in ascending order, `blocks` the bytes of the present blocks in bitmap order. Log entry 28: DESIGN CHOICE. -/
def State.writeTensor (s : State) (t : Tensor) (lines : List (List Nat)) (blocks : List Nat) : State :=
  let rows := lines.flatMap (fun l => tabulate t.lineRows (fun g =>
    (l.filter (fun k => k / 4096 == g)).foldl (fun a k => a + 2 ^ (k % 4096)) 0))
  let s := match decodeAddr t.bitmap with
    | some pl => s.writePlaces pl (rows.map row)
    | none => s
  let bb := blockBytes t.fmt
  let s := match decodeAddr t.values with
    | some pl => if blocks = [] then s
        else s.writePlaces pl (rowsOfNat (cdiv (blocks.length * bb) 512) (packElems (8 * bb) blocks))
    | none => s
  if !t.hasIndex then s
  else match decodeAddr t.index with
    | none => s
    | some pl =>
      let bases := rowBases (fun _ => none) rows 0 0
      let es := tabulate (cdiv t.rb 64) (fun i => bases.getD (64 * i) 0)
      s.writePlaces pl (rowsOfNat t.indexRows (packElems 32 es))

end Sys2Proof.Machine
end

