-- ==== Sys2Proof/Machine/Product.lean ====
section
/-! DEFINITION. The sparse product (R102-R109, R113, R114, R176, R439): checks, the two symbolic passes, weight sets, the
sums of the numeric phase, the cleanup pass of a predicted operation (R140), and the close and output phase. -/

namespace Sys2Proof.Machine

/-! ### Chunks and weight sets -/

/-- Blocks of a chunk (Table 05-3). -/
def chunkSize (fmt : Nat) : Nat := if fmt = 2 then 4 else if fmt = 6 ∨ fmt = 7 then 1 else 2

/-- Cuts a list into pieces of `z`; `n` bounds their number. -/
def cut {α : Type} (z : Nat) : Nat → List α → List (List α)
  | 0, _ => []
  | _ + 1, [] => []
  | n + 1, l => l.take z :: cut z n (l.drop z)

/-- The chunks of a line (R104). -/
def chunksOf (z : Nat) (l : List (Nat × Nat)) : List (List (Nat × Nat)) := cut z l.length l

/-- Row band of slot `i` of a chunk of `z` blocks. -/
def slotBand (z i : Nat) : Nat := if z = 1 then 0 else i / (z / 2)

/-- K-blocks that a chunk puts on the buses of a row band. -/
def bandBlocks (z band : Nat) (ch : List (Nat × Nat)) : List Nat :=
  (ch.zipIdx.filter (fun e => slotBand z e.2 == band)).map (fun e => e.1.1)

def union (a b : List Nat) : List Nat := a ++ b.filter (fun x => !a.contains x)

/-- One greedy set (R108): visits the column bands in order, `q` giving each band's remaining live chunks; answers the
admitted (line, chunk) and what remains. -/
def greedySet (z : Nat) (chunks : Nat → List (List (Nat × Nat))) :
    List (Nat × List Nat) → List Nat → List Nat → List (Nat × Nat) × List (Nat × List Nat)
  | [], _, _ => ([], [])
  | (lb, []) :: l, b0, b1 => let r := greedySet z chunks l b0 b1; (r.1, (lb, []) :: r.2)
  | (lb, c :: cs) :: l, b0, b1 =>
    let ch := (chunks lb).getD c []
    let n0 := union b0 (bandBlocks z 0 ch)
    let n1 := union b1 (bandBlocks z 1 ch)
    if n0.length ≤ 4 ∧ n1.length ≤ 4 then
      let r := greedySet z chunks l n0 n1
      ((lb, c) :: r.1, (lb, cs) :: r.2)
    else
      let r := greedySet z chunks l b0 b1
      (r.1, (lb, c :: cs) :: r.2)

/-- Greedy sets until no live chunk remains; `n` bounds their number. -/
def greedySets (z : Nat) (chunks : Nat → List (List (Nat × Nat))) :
    Nat → List (Nat × List Nat) → List (List (Nat × Nat))
  | 0, _ => []
  | n + 1, q =>
    if q.all (fun e => e.2.isEmpty) then []
    else
      let r := greedySet z chunks q [] []
      r.1 :: greedySets z chunks n r.2

/-- Aligned sets: set k holds chunk k of every line whose chunk k is live. -/
def alignedSets (live : List (Nat × List Nat)) : List (List (Nat × Nat)) :=
  (sortNats (live.flatMap (fun e => e.2))).map (fun k =>
    (live.filter (fun e => e.2.contains k)).map (fun e => (e.1, k)))

/-! ### Fields of sp.mm (Table 08-7) -/

structure SpF where
  arrays  : List Nat
  aSp     : Bool
  bSp     : Bool
  cSp     : Bool
  masked  : Bool
  pred    : Bool
  m       : Nat
  k       : Nat
  n       : Nat
  mrange  : Nat
  itemEn  : Bool
  close   : Bool
  outfmt  : Nat
  round   : Nat
  outRow  : Option Nat
  stream  : Nat
  draw    : Nat
  g       : GroupF
  form    : Nat

def Op.spF (o : Op) : SpF :=
  { arrays := setBits 4 (o.f 16 4), aSp := bit o.bits 20, bSp := bit o.bits 21, cSp := bit o.bits 22,
    masked := bit o.bits 23, pred := bit o.bits 24, m := o.f 145 15, k := o.f 160 24, n := o.f 184 10,
    mrange := o.f 194 12, itemEn := bit o.bits 206, close := bit o.bits 211, outfmt := o.f 212 4, round := o.f 216 2,
    outRow := o.ix 218 16, stream := o.f 234 32, draw := o.f 266 32, g := o.group 298, form := o.f 426 2 }

/-- A dispatch item as sp.mm reads it (Table 06-4). -/
structure Item where
  oblk  : Nat
  first : Nat
  count : Nat
  nseg  : Nat
deriving DecidableEq, Repr

/-- The entry at a locator: a tier 0x3 byte address of a 16-byte entry (R177). None when it names no row, or where the entry has a
field outside the range of Table 06-4 or a reserved bit set (R9, R10). Log entry 27: DEDUCED. -/
def State.readItem (s : State) (loc : Nat) : State × Option Item :=
  match decodeAddr (loc - loc % 512) with
  | some (.scr t r) =>
    if loc % 16 ≠ 0 ∨ s.room (.scr t r) = 0 then (s, none)
    else
      let (s, x) := s.readPlace (.scr t r)
      let e := elem 128 x.toNat (loc % 512 / 16)
      if fld e 0 32 > 2097151 ∨ fld e 96 4 > 11 ∨ fld e 100 4 = 0 ∨ fld e 100 4 > 12 ∨ fld e 114 14 ≠ 0 then (s, none)
      else (s, some { oblk := fld e 0 32, first := fld e 32 32, count := fld e 64 32, nseg := fld e 100 4 })
  | _ => (s, none)

/-- The lines of the activation that an operation runs over: all of them, or those of one item, restricted by rank
(R129). Log entry 25: DEDUCED. -/
def Operand.restrict (o : Operand) (it : Option Item) : Operand :=
  match it with
  | none => o
  | some i =>
    { o with
      lines := o.lines.zipIdx.map (fun e => if e.2 = i.oblk then (e.1.drop i.first).take i.count else [])
      rank := some (i.oblk, i.first, i.count) }

/-! ### What a product has settled before its numeric phase -/

/-- The output pattern: for each M-block, the output blocks it holds; none when every element is computed. -/
abbrev OutPat := Option (List (List Nat))

def OutPat.holds (c : OutPat) (la cb : Nat) : Bool :=
  match c with
  | none => true
  | some ls => (ls.getD la []).contains cb

/-- The M-blocks an operation runs over. -/
def mblocks (a : Operand) (it : Option Item) : List Nat :=
  match it with
  | none => List.range a.ob
  | some i => [i.oblk]

/-- Group row of row `i` of M-block `la` (R129, R149). -/
def groupRow (f : GroupF) (it : Option Item) (la i : Nat) : Nat :=
  f.rowOff.getD 0 + (if it.isSome then i else 8 * la + i)

/-- Rows of M-block `la` below M. -/
def blockRows (a : Operand) (la : Nat) : Nat := min 8 (a.odim - 8 * la)

/-- The match entries of line pairs, by M-block and line of B. -/
abbrev Matches := List ((Nat × Nat) × List MatchEntry)

def Matches.of (m : Matches) (la lb : Nat) : List MatchEntry := ((m.find? (fun e => e.1 == (la, lb))).map (fun e => e.2)).getD []

/-- Combines the given line pairs, in order (R106, R107); `n` is the number of the first combine within the operation. -/
def State.matchPairs (s : State) (p own : Nat) (a b : Operand) (n : Nat) : List (Nat × Nat) → State × Matches
  | [] => (s, [])
  | e :: l =>
    let (s, x) := s.matchLines p own a b e.1 e.2 n
    let (s, m) := State.matchPairs s p own a b (n + lineCombines a b) l
    (s, (e, x) :: m)

/-- The line pairs that pass 1 examines: every M-block with every line of B (R106). -/
def passOnePairs (a b : Operand) (it : Option Item) : List (Nat × Nat) :=
  (mblocks a it).flatMap (fun la => (List.range b.ob).map (fun lb => (la, lb)))

/-- Pass 1 (R106): output block (la, cb) is present when a line of A meets one of its four lines of B. -/
def passOne (a b : Operand) (m : Matches) (it : Option Item) : List (List Nat) :=
  let cbs := List.range (cdiv b.odim 32)
  tabulate a.ob (fun la =>
    if (mblocks a it).contains la then
      cbs.filter (fun cb => (span (4 * cb) 4).any (fun lb => !(m.of la lb).isEmpty))
    else [])

/-- Column bands of an array, or of a pass in wide-shallow form (R47, R57). -/
def bandsOf (wide : Bool) (fmt width : Nat) : Nat := if wide then panelCols true fmt width / 8 else width / 8

/-- The panels in rounds (R439): each round lists, for each named array in turn, the array and the lines of its panel;
`n` bounds the number of rounds. -/
def rounds (bands : List (Nat × Nat)) (ob : Nat) : Nat → Nat → List (List (Nat × List Nat))
  | 0, _ => []
  | n + 1, from_ =>
    if from_ ≥ ob then []
    else
      let r := bands.foldl (fun (acc : List (Nat × List Nat) × Nat) e =>
        let take := min e.2 (ob - acc.2)
        (acc.1 ++ [(e.1, span acc.2 take)], acc.2 + take)) ([], from_)
      r.1 :: rounds bands ob n r.2

/-! ### The numeric phase -/

/-- What a row band's buses carry for one M-block: the block of a K-block, none where the bus is empty (R44). -/
abbrev BusView := Nat → Nat → Option (Nat × Nat)

/-- The operand pairs of a column for the K-blocks of a chunk, in slot order and ascending K (R105), where the bus that a
slot selects is not empty. -/
def chunkPairs (a b : Operand) (bus : BusView) (bm : Blocks) (i j : Nat) (ch : List (Nat × Nat)) : List (Val × Val) :=
  ch.zipIdx.flatMap (fun e =>
    match bus (slotBand (chunkSize b.fmt) e.2) e.1.1 with
    | none => []
    | some x =>
      let y := Sparse.get (0, 0) bm e.1.2
      (List.range (min 32 (a.kdim - 32 * e.1.1))).map (fun k => (blockVal a.fmt x i k, blockVal b.fmt y j k)))

/-- The column sum of a chunk; none when no slot meets a block of the row. -/
def chunkSum (g : Group) (a b : Operand) (bus : BusView) (bm : Blocks) (i j : Nat) (ch : List (Nat × Nat)) :
    Option (Nat × FxFlags) :=
  if ch.zipIdx.any (fun e => (bus (slotBand (chunkSize b.fmt) e.2) e.1.1).isSome) then
    some (columnSum g.fmt g.anchor (pairWidth a.fmt b.fmt) (chunkPairs a b bus bm i j ch))
  else none

/-- One weight set as the arrays of a round run it: the output pattern, the admitted chunk of each line, and each array with
its lines. -/
structure Round where
  arrays : List (Nat × List Nat)
  lines  : List Nat
  chunks : Nat → List (List (Nat × Nat))

/-- The chunk that a set admits for a line. -/
def Round.chunk (r : Round) (set : List (Nat × Nat)) (lb : Nat) : Option (List (Nat × Nat)) :=
  (set.find? (fun e => e.1 == lb)).map (fun e => (r.chunks lb).getD e.2 [])

/-- The distinct K-blocks of a set in a row band, in ascending order: bus 0 upwards (R108). -/
def Round.buses (r : Round) (z : Nat) (set : List (Nat × Nat)) (band : Nat) : List Nat :=
  sortNats (set.flatMap (fun e => bandBlocks z band ((r.chunks e.1).getD e.2 [])))

/-- The columns of a panel: line and column within it. -/
def panelColumns (b : Operand) (lines : List Nat) : List (Nat × Nat) :=
  lines.flatMap (fun lb => (List.range (min 8 (b.odim - 8 * lb))).map (fun j => (lb, j)))

/-- Applies one weight set to row `i` of M-block `la` on one array: the sums of its panel's columns as one result row. In
wide-shallow form every column's sum is in its chunk register, and those that the output pattern holds drain from there; `reg` is
the number of the chunk in the pass (R48, R141). The sum of a column whose drain is suppressed counts nothing in the FX counters,
which the spec does not say. Log entry 81: DESIGN CHOICE. -/
def State.setRowOn (s : State) (p arr gid : Nat) (a b : Operand) (bus : BusView) (bm : Blocks) (c : OutPat) (r : Round)
    (set : List (Nat × Nat)) (lines : List Nat) (grow col la i : Nat) (reg : Option Nat) (fl : FxFlags) : State × FxFlags :=
  let g := (s.tile p).group arr gid
  let cols := panelColumns b lines
  let sum (q : Nat × Nat) : Option (Nat × FxFlags) := (r.chunk set q.1).bind (fun ch => chunkSum g a b bus bm i q.2 ch)
  let kept (q : Nat × Nat) : Bool := c.holds la (q.1 / 4)
  let fl := ((cols.filter kept).filterMap sum).foldl (fun f x => f.or x.2) fl
  let value (q : Nat × Nat) : Option Nat := (sum q).map (fun x => x.1)
  (match reg with
   | some k => s.drainSome p arr gid k i grow (col + 8 * lines.headD 0) (cols.map value)
       (fun n => (cols[n]?).elim false kept)
   | none =>
     let row := cols.map (fun q => if kept q then value q else none)
     if row.all (fun e => e.isNone) then s else s.contributeRow p arr gid grow (col + 8 * lines.headD 0) row, fl)

/-- The books of the numeric phase. -/
structure Numeric where
  s       : State
  fl      : FxFlags
  sets    : Nat
  skipped : Nat
  /-- Uses of lane-queue entries: block deliveries, or weight rows (R123). -/
  uses    : Nat
  /-- Rows that the internal path delivered (R121, R124). -/
  rows    : Nat

/-- Position in A of K-block `kb` for M-block `la`, from the entries of the lines that share the broadcast. -/
def Matches.busPos (m : Matches) (lbs : List Nat) (la kb : Nat) : Option Nat :=
  lbs.findSome? (fun lb => ((m.of la lb).find? (fun e => e.kblk == kb)).map (fun e => e.posA))

/-- The chunks of a line with the positions in B that the entries give (R108). -/
def Matches.chunks (m : Matches) (las : List Nat) (lb : Nat) (l : List (List (Nat × Nat))) : List (List (Nat × Nat)) :=
  l.map (fun ch => ch.map (fun e =>
    (e.1, (las.findSome? (fun la => ((m.of la lb).find? (fun x => x.kblk == e.1)).map (fun x => x.posB))).getD e.2)))

/-- Chunks of a line that are live for a range of M-blocks (R107). -/
def liveChunks (a : Operand) (m : Matches) (c : OutPat) (chunks : List (List (Nat × Nat))) (lb : Nat) (las : List Nat) :
    List Nat :=
  let las := las.filter (fun la => c.holds la (lb / 4))
  (List.range chunks.length).filter (fun i =>
    if a.dense then !las.isEmpty
    else las.any (fun la => (chunks.getD i []).any (fun e => (m.of la lb).any (fun x => x.kblk == e.1))))

/-- The block deliveries of M-block `la` through a set, row band 0 first, non-empty buses in ascending order (R121). -/
def Round.deliveries (r : Round) (z : Nat) (m : Matches) (am : Blocks) (set : List (Nat × Nat)) (la : Nat) : List Delivery :=
  [0, 1].flatMap (fun band =>
    let l := (r.buses z set band).zipIdx.filterMap (fun e => (m.busPos r.lines la e.1).map (fun q => (e.2, q)))
    l.zipIdx.map (fun e =>
      let x := Sparse.get (0, 0) am e.1.2
      ⟨band, e.1.1, e.2 + 1 == l.length, x.1, x.2⟩))

/-- The activation rows of M-block `la` on the broadcast for a set of a product of two dense operands: the elements of the set's
K-blocks in ascending order (R40). -/
def Round.inputRows (r : Round) (z : Nat) (a : Operand) (m : Matches) (am : Blocks) (set : List (Nat × Nat)) (la : Nat) :
    List (BitVec 544) :=
  let blocks := (union (r.buses z set 0) (r.buses z set 1)).filterMap (fun kb =>
    (m.busPos r.lines la kb).map (fun q => Sparse.get (0, 0) am q))
  tabulate (blockRows a la) (fun i => inputRow a.fmt (32 * blocks.length)
    (fun k => blockRaw a.fmt (blocks.getD (k / 32) (0, 0)) i (k % 32))
    (fun q => fld (blocks.getD q (0, 0)).2 (8 * i) 8))

/-- What the buses of one M-block carry, as array `arr` reads its lane queues; `n` counts the block's entries by row band
(R122). -/
def Round.view (r : Round) (z fmt : Nat) (t : Tile) (arr : Nat) (set : List (Nat × Nat)) (ds : List Delivery) : BusView :=
  fun band kb =>
    match (r.buses z set band).idxOf? kb with
    | none => none
    | some bus =>
      if ds.any (fun d => d.band == band && d.bus == bus) then
        some (t.busBlock arr fmt band bus (ds.filter (fun d => d.band == band)).length)
      else none

/-- The weights of a set are loaded and swapped in on one array (R38, R41, R42): slot `i` of a column band holds block `i` of
the band's chunk. -/
def State.loadSet (s : State) (p arr : Nat) (b : Operand) (bm : Blocks) (r : Round) (set : List (Nat × Nat))
    (lines : List Nat) : State :=
  let z := chunkSize b.fmt
  let blockAt (j slot : Nat) : Option (Nat × Nat) :=
    match lines[j / 8]? with
    | none => none
    | some lb => ((r.chunk set lb).getD [])[slot]?.map (fun e => Sparse.get (0, 0) bm e.2)
  let slotOf (k : Nat) : Nat × Nat := if z = 4 then (2 * (k / 64) + k % 2, k / 2 % 32) else (k / 32, k % 32)
  s.loadTile p arr b.fmt
    (fun j k => match blockAt j (slotOf k).1 with
      | some y => blockRaw b.fmt y (j % 8) (slotOf k).2
      | none => 0)
    (fun j q => match blockAt j q with
      | some y => fld y.2 (8 * (j % 8)) 8
      | none => 0)

/-- One M-block passes a weight set: its blocks are in the lane queues, its rows take them in ascending order, and they are
released together (R122). `direct` is what the buses carry where the queues are bypassed. -/
def State.passBlock (s : State) (p gid : Nat) (f : GroupF) (a b : Operand) (bm : Blocks) (c : OutPat) (it : Option Item)
    (r : Round) (set : List (Nat × Nat)) (ds : List Delivery) (direct : Option BusView) (la : Nat) (fl : FxFlags) :
    State × FxFlags :=
  let arrays := r.arrays.map (fun e => e.1)
  let t := s.tile p
  let bus (arr : Nat) : BusView := match direct with
    | some v => v
    | none => r.view (chunkSize b.fmt) a.fmt t arr set ds
  let acc := loop (blockRows a la) (s, fl) (fun acc i =>
    r.arrays.foldl (fun acc e =>
      if e.2.isEmpty then acc
      else acc.1.setRowOn p e.1 gid a b (bus e.1) bm c r set e.2 (groupRow f it la i) f.colOff la i none acc.2) acc)
  (acc.1.updTile p (fun t => t.release8 arrays a.fmt (fun band => (ds.filter (fun d => d.band == band)).length)), acc.2)

/-- The M-blocks of a range pass a weight set, with the deliveries running ahead of them (R121). Row blocks whose panel no
output block needs are not streamed (R114). A product of two dense operands is an ordinary array operation, which takes its
activation rows from the broadcast through the input buffers and bypasses the queues (R40, R119). `live` is the pattern that
decides what is streamed, `c` what is written. -/
def State.runSet (s : State) (p gid : Nat) (f : GroupF) (a b : Operand) (am bm : Blocks) (m : Matches) (live c : OutPat)
    (it : Option Item) (r : Round) (las : List Nat) (set : List (Nat × Nat)) (fl : FxFlags) : State × FxFlags × Nat :=
  let arrays := r.arrays.map (fun e => e.1)
  let s := r.arrays.foldl (fun s e => if e.2.isEmpty then s else s.loadSet p e.1 b bm r set e.2) s
  let plain := a.dense && b.dense
  let blocks := (las.filter (fun la => r.lines.any (fun lb => live.holds la (lb / 4)))).map (fun la =>
    (la, if plain then [] else r.deliveries (chunkSize b.fmt) m am set la))
  let s := if plain then
      let rows := blocks.flatMap (fun e => r.inputRows (chunkSize b.fmt) a m am set e.1)
      arrays.foldl (fun s arr => s.takeInputs p arr rows) s
    else s
  let direct (la : Nat) : Option BusView :=
    if plain then some (fun _ kb => (m.busPos r.lines la kb).map (fun q => Sparse.get (0, 0) am q)) else none
  let all := blocks.flatMap (fun e => e.2)
  let x := blocks.foldl (fun (acc : State × FxFlags × List Delivery) e =>
    let (t, waiting) := (acc.1.tile p).fill arrays a.fmt acc.2.2
    let r := (acc.1.setTile p t).passBlock p gid f a b bm c it r set e.2 (direct e.1) e.1 acc.2.1
    (r.1, r.2, waiting)) (s, fl, all)
  (x.1, x.2.1, all.length)

/-- The weight rows of an array's panel in a pass of a wide-shallow product (R47). -/
def Operand.passRows (b : Operand) (bm : Blocks) (lines : List Nat) : List Nat :=
  let l := lines.headD 0
  let el (j k : Nat) : Nat × Nat := match ((b.lines.getD (l + j / 8) []).find? (fun e => e.1 == k / 32)) with
    | some e => Sparse.get (0, 0) bm e.2
    | none => (0, 0)
  if lines = [] then []
  else wideRows b.fmt (min (8 * lines.length) (b.odim - 8 * l)) (fun j k => blockRaw b.fmt (el j k) (j % 8) (k % 32))
    (fun j q => fld (el j (32 * q)).2 (8 * (j % 8)) 8) 0 b.kdim

/-- The pass of an array's panel over M-block `la` is run: some output block of it is needed (R114, R141). -/
def OutPat.needs (c : OutPat) (la : Nat) (lines : List Nat) : Bool := lines.any (fun lb => c.holds la (lb / 4))

/-- A pass of a wide-shallow product over one M-block: the weight rows of each array's panel go through its lane queues
(R47, R124), with the predictor's rows that run beside them (R142), and every chunk meets the block's rows in ascending order
(R48). An array whose pass no output block needs does not run it. -/
def State.runPass (s : State) (p gid : Nat) (f : GroupF) (a b : Operand) (am bm : Blocks) (m : Matches) (c : OutPat)
    (it : Option Item) (r : Round) (la : Nat) (beside : Nat → List Nat) (fl : FxFlags) : State × FxFlags × Nat :=
  let used := r.arrays.filter (fun e => c.needs la e.2)
  let rows := used.map (fun e => (e.1, b.passRows bm e.2))
  let s := rows.foldl (fun s e => s.streamPass p e.1 e.2 (beside e.1)) s
  let bus : BusView := fun _ kb => (m.busPos r.lines la kb).map (fun q => Sparse.get (0, 0) am q)
  let sets := alignedSets ((used.flatMap (fun e => e.2)).map (fun lb => (lb, List.range (r.chunks lb).length)))
  let x := sets.zipIdx.foldl (fun acc set =>
    loop (blockRows a la) acc (fun acc i =>
      used.foldl (fun acc e =>
        acc.1.setRowOn p e.1 gid a b bus bm c r set.1 e.2 (groupRow f it la i) f.colOff la i (some set.2) acc.2) acc)) (s, fl)
  (x.1, x.2, (rows.map (fun e => e.2.length)).foldl (· + ·) 0)

/-- The numeric phase over rounds, M ranges, weight sets and activation rows. In wide-shallow form every chunk of a pass
runs, in ascending order, and no set and no dead chunk is counted: R104 and R107 speak of native form. `live` is the output
pattern that decides which chunks are live and which rows are streamed, that of C.bit (R107, R114); `c` says which output blocks
this phase computes, those that the cleanup pass computes not among them (R140). `beside` gives the rows of the predictor's
passes that run beside the first round's pass of an M-block on an array. Log entry 84: DESIGN CHOICE. -/
def State.numeric (s : State) (p gid : Nat) (f : GroupF) (a b : Operand) (am bm : Blocks) (m : Matches) (live c : OutPat)
    (it : Option Item) (wide : Bool) (mrange : Nat) (rs : List (List (Nat × List Nat))) (beside : Nat → Nat → List Nat) :
    Numeric :=
  let z := chunkSize b.fmt
  let chunks : Nat → List (List (Nat × Nat)) := fun lb => chunksOf z (b.lines.getD lb [])
  let blocks := mblocks a it
  let ranges := cut (if wide then 1 else mrange) blocks.length blocks
  rs.zipIdx.foldl (fun acc rd =>
    let round := rd.1
    let lbs := round.flatMap (fun e => e.2)
    let aligned := b.paired && lbs.all (fun lb => b.conf.getD lb false)
    ranges.foldl (fun (acc : Numeric) las =>
      let r : Round := { arrays := round, lines := lbs, chunks := fun lb => m.chunks las lb (chunks lb) }
      if wide then
        let la := las.headD 0
        let x := acc.s.runPass p gid f a b am bm m c it r la (fun arr => if rd.2 = 0 then beside arr la else []) acc.fl
        { acc with
          s := x.1
          fl := x.2.1
          rows := acc.rows + x.2.2 }
      else
        let chunksOn := lbs.map (fun lb => (lb, liveChunks a m live (chunks lb) lb las))
        let used := (chunksOn.map (fun e => e.2.length)).foldl (· + ·) 0
        let all := (lbs.map (fun lb => (chunks lb).length)).foldl (· + ·) 0
        let sets := if aligned then alignedSets chunksOn else greedySets z chunks used chunksOn
        let x := sets.foldl (fun (acc : State × FxFlags × Nat) set =>
          let y := acc.1.runSet p gid f a b am bm m live c it r las set acc.2.1
          (y.1, y.2.1, acc.2.2 + y.2.2)) (acc.s, acc.fl, 0)
        { s := x.1, fl := x.2.1, sets := acc.sets + sets.length, skipped := acc.skipped + (all - used),
          uses := acc.uses + x.2.2, rows := acc.rows + x.2.2 }) acc)
    { s := s, fl := FxFlags.none, sets := 0, skipped := 0, uses := 0, rows := 0 }

/-! ### The cleanup pass (R140) -/

/-- The K-blocks of segment `q` of four. -/
def inSegment (kb q e : Nat) : Bool := decide (q * kb / 4 ≤ e) && decide (e < (q + 1) * kb / 4)

/-- The partial of one segment: its chunk sums in ascending order, in FP32 or modulo 2^64; none when it has no K-block. A chunk of
R104 that two segments share gives each of them a column sum over its own K-blocks, which decides FP32 roundings and which the
spec does not say. Log entry 27: DEDUCED. -/
def segmentPartial (g : Group) (a b : Operand) (bus : Nat → Option (Nat × Nat)) (bm : Blocks)
    (chunks : List (List (Nat × Nat))) (i j q : Nat) : Option (Nat × FxFlags) :=
  let fmt := if g.fmt = 2 then 2 else 1
  let parts := chunks.filterMap (fun ch =>
    chunkSum { g with fmt := fmt } a b (fun _ kb => if inSegment a.kb q kb then bus kb else none) bm i j ch)
  match parts with
  | [] => none
  | x :: l => some (l.foldl (fun acc e => (contribute fmt acc.1 e.1, acc.2.or e.2)) (contribute fmt 0 x.1, x.2))

/-- The total of an element: the partials added in ascending segment order. -/
def cleanupTotal (g : Group) (a b : Operand) (bus : Nat → Option (Nat × Nat)) (bm : Blocks)
    (chunks : List (List (Nat × Nat))) (i j : Nat) : Option (Nat × FxFlags) :=
  let fmt := if g.fmt = 2 then 2 else 1
  match (List.range 4).filterMap (segmentPartial g a b bus bm chunks i j) with
  | [] => none
  | x :: l => some (l.foldl (fun acc e => (contribute fmt acc.1 e.1, acc.2.or e.2)) x)

/-- Computes the missed pairs and writes each total to its group (R140). `owner` is the array of a line. The totals of one line,
8 columns of a row, are what reads and writes a store row at a time; the spec does not say how the vector engine's totals reach
the store. Nor does it say whether weight sets of this pass count in ctr.sparse.sets and RESULT1: none counts, and none loads the
weight registers. Log entry 27: DEDUCED; log entry 81: DESIGN CHOICE; log entry 84: DESIGN CHOICE. -/
def State.cleanup (s : State) (p gid : Nat) (f : GroupF) (a b : Operand) (am bm : Blocks) (m : Matches) (it : Option Item)
    (owner : Nat → Nat) (missed : List (Nat × Nat)) (fl : FxFlags) : State × FxFlags :=
  let z := chunkSize b.fmt
  missed.foldl (fun acc pr =>
    loop (blockRows a pr.1) acc (fun acc i =>
      (span (4 * pr.2) 4).foldl (fun acc lb =>
        if 8 * lb ≥ b.odim then acc
        else
          let g := (acc.1.tile p).group (owner lb) gid
          let bus (kb : Nat) : Option (Nat × Nat) := (m.busPos [lb] pr.1 kb).map (fun q => Sparse.get (0, 0) am q)
          let chunks := m.chunks [pr.1] lb (chunksOf z (b.lines.getD lb []))
          let sums := tabulate (min 8 (b.odim - 8 * lb)) (fun j =>
            cleanupTotal g a b bus bm chunks i j)
          let fl := sums.foldl (fun f e => match e with
            | some x => f.or x.2
            | none => f) acc.2
          (acc.1.contributeRow p (owner lb) gid (groupRow f it pr.1 i) (f.colOff + 8 * lb)
            (sums.map (fun e => e.map (fun x => x.1))), fl)) acc)) (s, fl)

/-! ### The close of a product -/

/-- The magnitude is at most the layer threshold (R139); a NaN is not affected. -/
def belowThresh (thresh : Option Val) (v : Val) : Bool :=
  match thresh with
  | none => false
  | some t =>
    match Val.cmp (match v with
      | .fin _ m q => .fin false m q
      | .inf _ => .inf false
      | .nan => .nan) t with
    | some d => decide (d ≤ 0)
    | none => false

/-- What the close of one element is made of: its bits in the group and its logical index. Log entry 22: DEDUCED. -/
def State.closeElems (s : State) (p l : Nat) (fmt : Nat) (anchor : Int) (outfmt round stream draw : Nat)
    (thresh : Option Val) (es : List (Nat × Nat)) : State × List Nat :=
  if outfmt = 10 then (s, es.map (fun e => if belowThresh thresh (fxVal e.1 anchor) then 0 else e.1))
  else
    let (s, us) := s.roundWords p (some l) round stream draw (es.map (fun e => e.2))
    let vals := es.map (fun e =>
      let v := accVal fmt e.1 anchor
      if belowThresh thresh v then Val.fin false 0 0 else v)
    s.convertAll p outfmt round (vals.zip us)

/-- Frees the group at its close, and counts a reduction above 2^24 positions (R70). -/
def State.retireGroup (s : State) (p a gid : Nat) : State :=
  let n := ((s.tile p).group a gid).positions
  (s.freeGroup p a gid).countIf (decide (n > 2 ^ 24)) 0x0203 p

/-- Closes each array's group to its own output rows (R439, R155). The counters of a close (R76) count once for each
array's group, not for each panel, which the spec leaves open. The groups close, and their rows are written, with M = 0 too: R51
says that such an operation writes nothing, R155 and R439 that a close writes its group. Log entry 28: DESIGN CHOICE; log entry
81: DESIGN CHOICE; log entry 84: DESIGN CHOICE. -/
def State.closeDense (s : State) (p l : Nat) (f : SpF) (thresh : Option Val) (origin pitch : Nat) : State :=
  (f.arrays.zipIdx).foldl (fun s e =>
    let g := (s.tile p).group e.1 f.g.gid
    let n := g.grows * g.gcols
    let rows := cdiv (n * fmtBytes f.outfmt) 512
    let (s, x) := s.groupBits p e.1 f.g.gid
    let (s, bits) := s.closeElems p l g.fmt g.anchor f.outfmt f.round f.stream f.draw thresh
      (tabulate n (fun i => (elem (8 * accBytes g.fmt) x i, origin + i / g.gcols * pitch + i % g.gcols)))
    (writeRows (s.retireGroup p e.1 f.g.gid) p (f.outRow.getD 0 + e.2 * rows)
      (rowsOfNat rows (packElems (fmtBits f.outfmt) bits)))) s

/-- Closes the elements of C from the groups that computed them and writes the output tensor (R109). Positions of a
block beyond the dimensions of C hold what the spec leaves open, a function of C's values in row-major order, the same on every
run, width and number of arrays (R2). Log entry 22: DEDUCED. -/
def State.closeSparse (s : State) (p l : Nat) (f : SpF) (t : Tensor) (a b : Operand) (pat : List (List Nat))
    (it : Option Item) (owner : Nat → Nat) (thresh : Option Val) (origin pitch : Nat) : State :=
  let m := a.odim
  let n := b.odim
  let (s, vals) := f.arrays.foldl (fun (acc : State × List ((Nat × Nat) × Nat)) arr =>
    let g := (acc.1.tile p).group arr f.g.gid
    let (s, x) := acc.1.groupBits p arr f.g.gid
    let places := (mblocks a it).flatMap (fun la => (List.range (blockRows a la)).flatMap (fun i =>
      ((List.range n).filter (fun j => owner (j / 8) == arr)).map (fun j => (la, i, j))))
    let es := places.map (fun q =>
      (elem (8 * accBytes g.fmt) x (groupRow f.g it q.1 q.2.1 * g.gcols + f.g.colOff + q.2.2),
       origin + (8 * q.1 + q.2.1) * pitch + q.2.2))
    let (s, bits) := s.closeElems p l g.fmt g.anchor f.outfmt f.round f.stream f.draw thresh es
    (s.retireGroup p arr f.g.gid, acc.2 ++ (places.map (fun q => (8 * q.1 + q.2.1, q.2.2))).zip bits)) (s, [])
  let inside (mm nn : Nat) : Nat := ((vals.find? (fun e => e.1 == (mm, nn))).map (fun e => e.2)).getD 0
  let all := (List.range m).flatMap (fun mm => (List.range n).map (inside mm))
  let value (mm nn : Nat) : Nat := if mm < m ∧ nn < n then inside mm nn else Config.edge all (mm * 2 ^ 32 + nn)
  let blocks := pat.zipIdx.flatMap (fun e => e.1.map (fun cb =>
    packElems (fmtBits t.fmt) ((List.range 8).flatMap (fun i => tabulate 32 (fun k => value (8 * e.2 + i) (32 * cb + k))))))
  s.writeTensor t pat blocks

end Sys2Proof.Machine
end

