-- ==== Sys2Proof/Machine/Predictor.lean ====
section
/-! DEFINITION. The activity predictor (R132-R139): its descriptor and checks, the mask, and the bound check. -/

namespace Sys2Proof.Machine

/-- The predictor descriptor (Table 06-5). -/
structure Pred where
  u       : Nat
  v       : Nat
  norm    : Nat
  maskRow : Nat
  rank    : Nat
  pfmt    : Nat
  mode    : Nat
  engine  : Bool
  array   : Nat
  pthresh : Nat
  thresh  : Nat
deriving DecidableEq, Repr

def predOf (x : Nat) : Pred :=
  { u := fld x 0 64, v := fld x 64 64, norm := fld x 128 64, maskRow := fld x 192 16, rank := fld x 208 9,
    pfmt := fld x 217 4, mode := fld x 221 2, engine := bit x 223, array := fld x 224 2, pthresh := fld x 256 32,
    thresh := fld x 288 32 }

def Val.finite : Val → Bool
  | .fin _ _ _ => true
  | _ => false

/-- Rows of U, V, the norm table and the mask, for M, K, N. -/
def Pred.uRows (d : Pred) (k : Nat) : Nat := cdiv (k * d.rank * fmtBytes d.pfmt) 512
def Pred.vRows (d : Pred) (n : Nat) : Nat := cdiv (d.rank * n * fmtBytes d.pfmt) 512
def normRows (n : Nat) : Nat := cdiv (cdiv n 32) 128
def maskRows (m n : Nat) : Nat := cdiv m 8 * cdiv (cdiv n 32) 4096

/-- The address of a row of logical tile `t` (Table 01-13). -/
def tileAddr (t r : Nat) : Nat := 3 * 2 ^ 60 + t * 2 ^ 25 + r * 512

/-- The checks of R133 in order: 0, or the number of the first that fails and its status. `regions` are the operand and
output regions of the operation. -/
def State.predCheck (s : State) (own x m k n : Nat) (regions : List (Nat × Nat)) : Nat × Nat :=
  let d := predOf x
  let parts := ([(d.u, d.uRows k), (d.v, d.vRows n), (d.norm, normRows n)]).filter (fun r => r.2 != 0)
  let own' := ([(d.norm, normRows n), (tileAddr own d.maskRow, maskRows m n)]).filter (fun r => r.2 != 0)
  if !crcOk64 x then (1, stBadCrc)
  else if fld x 226 30 ≠ 0 ∨ fld x 320 160 ≠ 0 ∨ d.maskRow ≥ 0x6000 ∨ d.rank < 8 ∨ d.rank > 256 ∨ d.rank % 8 ≠ 0 ∨
      (d.pfmt ≠ 0 ∧ d.pfmt ≠ 6) ∨ d.mode = 3 ∨ (!d.engine ∧ d.array ≠ 0) ∨ !(f32Val d.pthresh).finite ∨
      !(f32Val d.thresh).finite ∨ bit d.thresh 31 then (2, stBadParam)
  else if parts.any (fun r => !s.regionOk own false r.1) then (3, stBadParam)
  else if parts.any s.regionPasses then (3, stLength)
  else if d.maskRow + maskRows m n > 0x6000 then (4, stLength)
  else if own'.any (fun r => regions.any (regionsMeet r)) then (5, stConflict)
  else (0, stOk)

/-- The chunk sums of a predictor product on an array in wide-shallow form (R48, R135). The activation may have a format that does
not pair with PFMT under Table 03-3, which no check of R133 refuses: it is computed with PFMT's tile depth.
Log entry 84: DESIGN CHOICE. -/
def predChunks (d : Pred) (l : List (Val × Val)) : List Nat :=
  (cut (tileDepth d.pfmt) l.length l).map (fun ch => (columnSum 1 0 0 ch).1)

/-- The FP32 sum of a predictor product: on an array chunk by chunk, otherwise one fused multiply-add after another
(R135). -/
def predSum (d : Pred) (l : List (Val × Val)) : Nat :=
  if d.engine then (predChunks d l).foldl accAdd32 0 else (columnSum 1 0 0 l).1

/-- Element `i` of a dense row-major operand that was read as one number. -/
def predElem (d : Pred) (x i : Nat) : Val := floatVal d.pfmt (elem (fmtBits d.pfmt) x i)

/-- The operand pairs of column `r` of z, and of column `c` of s (R134). -/
def zPairs (d : Pred) (u k : Nat) (x : Nat → Val) (r : Nat) : List (Val × Val) :=
  tabulate k (fun i => (x i, predElem d u (i * d.rank + r)))
def sPairs (d : Pred) (v n : Nat) (z : List Val) (c : Nat) : List (Val × Val) :=
  z.zipIdx.map (fun e => (e.1, predElem d v (e.2 * n + c)))

/-- z of one token, rounded to PFMT (R134). Log entry 30: DEDUCED. -/
def tokenZ (d : Pred) (u k : Nat) (x : Nat → Val) : List Val :=
  tabulate d.rank (fun r => floatVal d.pfmt (convert d.pfmt 0 0 (f32Val (predSum d (zPairs d u k x r)))).bits)

/-- The scores of one token (R134): s for each column. -/
def tokenScores (d : Pred) (u v k n : Nat) (x : Nat → Val) : List Nat :=
  let z := tokenZ d u k x
  tabulate n (fun c => predSum d (sPairs d v n z c))

def f32Above (a b : Val) : Bool :=
  match Val.cmp a b with
  | some d => decide (d > 0)
  | none => false

/-- A block-column is predicted for a token. What a NaN score decides the spec leaves open; it is a function of the scores,
so that the mask is bit-identical on every run (R135). Log entry 26: DESIGN CHOICE. -/
def predicted (d : Pred) (scores : List Nat) (c : Nat) : Bool :=
  let bits := (scores.drop (32 * c)).take 32
  let l := bits.map f32Val
  if l.any (fun v => v == .nan) then Config.nanScore bits d.pthresh else l.any (fun v => f32Above v (f32Val d.pthresh))

/-- A pair is missed by its bound (R136). What a NaN bound decides the spec leaves open: under MAKEUP the pair is missed, so that
it is computed and the output is that of the operation without prediction (R3); else it is a function of the bound's bits.
Log entry 26: DESIGN CHOICE. -/
def missedBound (d : Pred) (bound : Nat) : Bool :=
  match f32Val bound with
  | .nan => d.mode == 1 || Config.nanBound bound d.thresh
  | b => f32Above b (f32Val d.thresh)

/-- The L2 norm of a token, every operation rounded toward +infinity (R136). Log entry 26: DESIGN CHOICE. -/
def tokenNorm (k : Nat) (x : Nat → Val) : Val :=
  let sum := (List.range k).foldl (fun acc i =>
    let v := x i
    f32Val (toF32Up (Val.add acc (f32Val (toF32Up (Val.mul v v)))))) (Val.fin false 0 0)
  match sum with
  | .fin _ m q => if m = 0 then .fin false 0 0 else f32Val (sqrtUp m q)
  | v => v

/-- The larger of two norms; a NaN stays. Log entry 26: DESIGN CHOICE. -/
def normMax (a b : Val) : Val :=
  match Val.cmp a b with
  | none => .nan
  | some d => if d ≥ 0 then a else b

/-- What the predictor decided: the mask, and the missed pairs, as output blocks of each M-block; and by M-block the weight rows
of its passes that run beside the operation's own pass of that block (R142). -/
structure Guess where
  mask   : List (List Nat)
  missed : List (List Nat)
  beside : List (Nat × List Nat) := []
deriving DecidableEq, Repr

/-- The weight rows that run beside the pass of M-block `la` on array `arr`. -/
def Guess.rowsBeside (g : Guess) (d : Option Pred) (arr la : Nat) : List Nat :=
  match d with
  | some d => if d.array = arr then ((g.beside.find? (fun e => e.1 == la)).map (fun e => e.2)).getD [] else []
  | none => []

/-- The bits of the mask rows: lines of ceil(OBc / 4,096) rows (R134). -/
def maskRowsOf (n : Nat) (lines : List (List Nat)) : List Row :=
  let per := cdiv (cdiv n 32) 4096
  lines.flatMap (fun l => tabulate per (fun g =>
    row ((l.filter (fun c => c / 4096 == g)).foldl (fun a c => a + 2 ^ (c % 4096)) 0)))

/-- Weight rows of the predictor's passes for one token group: the pass for z over K, and those for s over the rank, one
for each panel of columns (R47, R135). -/
def Pred.passRows (d : Pred) (u v k n : Nat) : List (List Nat) :=
  let el (x i : Nat) : Nat := elem (fmtBits d.pfmt) x i
  let cols := panelCols true d.pfmt 64
  wideRows d.pfmt d.rank (fun j kk => el u (kk * d.rank + j)) (fun _ _ => 0) 0 k ::
    tabulate (cdiv n cols) (fun q => wideRows d.pfmt (min cols (n - q * cols)) (fun j r => el v (r * n + q * cols + j))
      (fun _ _ => 0) 0 d.rank)

/-- The chunk sums that the passes of a token leave in the chunk registers of its cells: pass by pass, chunk by chunk, by
column. -/
def Pred.passChunks (d : Pred) (u v k n : Nat) (x : Nat → Val) : List (List (List (Option Nat))) :=
  let cols := panelCols true d.pfmt 64
  let chunks (len : Nat) (w : List (List Nat)) : List (List (Option Nat)) :=
    tabulate (cdiv len (tileDepth d.pfmt)) (fun c => w.map (fun l => l[c]?))
  let z := tokenZ d u k x
  chunks k (tabulate d.rank (fun r => predChunks d (zPairs d u k x r))) ::
    tabulate (cdiv n cols) (fun q => chunks d.rank (tabulate (min cols (n - q * cols)) (fun c =>
      predChunks d (sPairs d v n z (q * cols + c)))))

/-- Token `i` of a group passes PRED_ARRAY: its chunk sums go through its chunk registers (R48, R142). -/
def State.holdPasses (s : State) (p a i : Nat) (l : List (List (List (Option Nat)))) : State :=
  l.foldl (fun s pass => pass.zipIdx.foldl (fun s c => s.holdChunk p a c.2 i c.1) s) s

/-- The M-block of `own` whose pass the predictor's passes of token group `g` run beside: the last before the group. -/
def passHost (own : List Nat) (g : Nat) : Option Nat := (own.filter (fun la => decide (la < g))).getLast?

/-- The predictor's passes on PRED_ARRAY. The passes of a token group run beside the operation's own wide-shallow pass of an
M-block before it (`own` are the M-blocks that have such a pass there); those rows are left to it, by M-block. The others run by
themselves, or beside what an earlier wide-shallow operation in flight has left there. How many passes were shared is a matter of
timing (R142). Log entry 17: DESIGN CHOICE. -/
def State.predPasses (s : State) (p : Nat) (d : Pred) (own : List Nat) (groups u v k n : Nat) : State × List (Nat × List Nat) :=
  let passes := d.passRows u v k n
  let hosts := (List.range groups).filterMap (passHost own)
  let early := (s.tile p).wideOn d.array
  let s := loop groups s (fun s g =>
    if (passHost own g).isSome then s else passes.foldl (fun s rows => s.streamPred p d.array early rows) s)
  let shared := passes.length * (if early then groups else hosts.length)
  let s := if shared = 0 then s else
    let (s, x) := s.draw
    s.bump 0x0905 p (Config.choice x % (shared + 1))
  (s, own.map (fun la => (la, (hosts.filter (fun h => h == la)).flatMap (fun _ => passes.flatMap id))))

/-- Runs the predictor over a dense activation: the mask, written from MASK_ROW, and the bound check, with their
counters. Under MAKEUP the mask is extended with the missed pairs, in its rows too. With a dispatch item the activation is what
the item leaves of it, so that the tokens of every other M-block are zeros, which the spec does not say. `works`: the arrays take
steps for the operation (R50); `own la cols`: with those output blocks predicted for M-block `la`, the operation has a
wide-shallow pass of its own for it on PRED_ARRAY. Log entry 25: DEDUCED; log entry 26: DESIGN CHOICE. -/
def State.predict (s : State) (p : Nat) (d : Pred) (a : Operand) (am : Blocks) (n : Nat) (works : Bool)
    (own : Nat → List Nat → Bool) : State × Guess :=
  let k := a.kdim
  let obc := cdiv n 32
  let read (s : State) (addr rows : Nat) : State × Nat := match decodeAddr addr with
    | some pl => if rows = 0 then (s, 0) else (fun r => (r.1, packElems 4096 r.2)) (s.readPlaces pl rows)
    | none => (s, 0)
  let (s, u) := read s d.u (d.uRows k)
  let (s, v) := read s d.v (d.vRows n)
  let (s, nw) := read s d.norm (normRows n)
  let token (la i : Nat) : Nat → Val := fun kk =>
    match a.pos la (kk / 32) with
    | some q => blockVal a.fmt (Sparse.get (0, 0) am q) i (kk % 32)
    | none => .fin false 0 0
  let runs := d.engine && works
  let mask := tabulate a.ob (fun la =>
    let scores := tabulate (blockRows a la) (fun i => tokenScores d u v k n (token la i))
    (List.range obc).filter (fun c => scores.any (fun e => predicted d e c)))
  let (s, beside) := if runs then
      s.predPasses p d ((List.range a.ob).filter (fun la => own la (mask.getD la []))) a.ob u v k n
    else (s, [])
  let s := if !runs then s
    else loop a.ob s (fun s la => loop (blockRows a la) s (fun s i =>
      s.holdPasses p d.array i (d.passChunks u v k n (token la i))))
  let missed := tabulate a.ob (fun la =>
    let nx := (tabulate (blockRows a la) (fun i => tokenNorm k (token la i))).foldl normMax (.fin false 0 0)
    (List.range obc).filter (fun c =>
      !(mask.getD la []).contains c &&
      missedBound d (toF32Up (Val.mul nx (f32Val (elem 32 nw c))))))
  let count (l : List (List Nat)) : Nat := (l.map List.length).foldl (· + ·) 0
  let s := (s.count 0x0902 p (count mask)).count 0x0903 p (count missed)
  let rows := if d.mode = 1 then
      (mask.zip missed).map (fun e => sortNats (e.1 ++ e.2))
    else mask
  (writeRows s p d.maskRow (maskRowsOf n rows), { mask := mask, missed := missed, beside := beside })

end Sys2Proof.Machine
end

