-- ==== Sys2Proof/Machine/SparseProduct.lean ====
section
/-! DEFINITION. sp.mm (R176, Table 08-7): the order of its checks and what a product that passes them does. -/

namespace Sys2Proof.Machine

/-- What the checks of sp.mm settle. -/
structure SpReady where
  a      : Operand
  b      : Operand
  c      : Option Tensor
  mask   : Option Operand
  pred   : Option Pred
  item   : Option Item
  flags  : PatFlags
  origin : Nat
  pitch  : Nat

/-- A rejection: status, DETAIL, and the counter it increments, 0 for none, and by how much. -/
structure Rej where
  status : Nat
  detail : Nat
  ctr    : Nat
  times  : Nat := 1
deriving DecidableEq, Repr

/-- Log entry 33: DEDUCED. -/
def Rej.sparse (status role check : Nat) : Rej := { status := status, detail := roleDetail role check, ctr := 0x0403 }
def Rej.plain (status : Nat) : Rej := { status := status, detail := 0, ctr := 0 }

/-- Of the descriptors that fail, in the order in which they are read, the first decides the status, and each counts (R91,
R92). -/
def Rej.firstOf (l : List (Option Rej)) : Option Rej :=
  match l.filterMap id with
  | [] => none
  | r :: rest => some { r with times := rest.length + 1 }

/-- A descriptor role of an operation: none when it is not used. A reference that names no scratchpad row, an overflowing
C_REF or MASK_REF among them, counts as a rejected descriptor of its role; an overflowing A_REF or B_REF counts nothing and
has DETAIL 0. The spec says neither. Log entry 21: DEDUCED; log entry 84: DESIGN CHOICE. -/
def State.roleCheck (s : State) (own : Nat) (used out : Bool) (role : Nat) (fmtOk : Nat → Bool) (x : Option Nat) :
    Option Rej :=
  if !used then none
  else match x with
    | none => some (Rej.sparse stBadParam role 0)
    | some x =>
      let c := s.tensorCheck own out fmtOk x
      if c = 0 then none else some (Rej.sparse (tensorStatus c) role c)

/-- The groups the operation will write have one anchor; none when they differ. -/
def spAnchor (s : State) (p : Nat) (f : SpF) (natural : Option Int) : Option Int :=
  if f.g.opens then
    some (if f.g.fmt ≠ 2 then 0
      else match f.g.src with
        | 0 => natural.getD 0
        | 1 => f.g.anchor
        | _ => signed 16 (fld (readRow s p (f.g.anchorRow.getD 0)).2.toNat 0 16))
  else
    let as := f.arrays.map (fun a => ((s.tile p).group a f.g.gid).anchor)
    if as.all (fun a => a == as.headD 0) then some (as.headD 0) else none

/-- The shapes of R102 and R113. A.KDIM that differs from B.KDIM is A's, role 0 of a rejection that no one descriptor makes; of C
and the mask that both fail, C's is the one that counts. The spec says neither. Log entry 84: DESIGN CHOICE. -/
def shapeCheck (ka kb m n : Nat) (f : SpF) (anchor : Option Int) (c mask : Option Tensor) : Option Rej :=
  if ka ≠ kb then some (Rej.sparse stBadParam 0 0)
  else
    let cBad : Bool := match c with
      | none => false
      | some t => decide (t.kdim ≠ n ∨ t.odim ≠ m ∨ t.fmt ≠ f.outfmt) || (t.fmt == 10 && anchor != some t.anchor)
    let mBad : Bool := match mask, c with
      | some t, some u => decide (t.nnzb ≠ 0 ∨ t.values ≠ 0 ∨ t.kdim ≠ u.kdim ∨ t.odim ≠ u.odim) || t.hasIndex || t.paired
      | _, _ => false
    if cBad then some (Rej.sparse stBadParam 3 0)
    else if mBad then some (Rej.sparse stBadParam 4 0)
    else none

/-- The checks of the close that a product makes (R156, R257). -/
def spCloseCheck (t : Tile) (f : SpF) (cols : Option Nat) (x14 x15 : Nat) : Option Rej × Nat × Nat :=
  let bad (st : Nat) : Option Rej × Nat × Nat := (some { status := st, detail := 0, ctr := 0x0A01 }, 0, 0)
  if !f.close then (none, 0, 0)
  else
    let shapes := f.arrays.map (fun a => groupShape t a f.g)
    let gcols := (shapes.map (fun e => e.2.1)).headD 0
    let n := cols.getD gcols
    let pitch := if x15 = 0 then n else x15
    let rowsOf := (shapes.map (fun e => cdiv (e.1 * e.2.1 * fmtBytes f.outfmt) 512))
    if shapes.any (fun e => !closeFmtOk e.2.2 f.outfmt) then bad stBadParam
    else if cols.isNone ∧ (f.outRow.isNone ∨ f.outRow.getD 0 ≥ 0x6000) then bad stBadParam
    else if cols.isNone ∧ rowsOf.zipIdx.any (fun e => decide (f.outRow.getD 0 + e.2 * e.1 + e.1 > 0x6000)) then bad stLength
    else if f.outfmt = 10 ∨ f.round ≠ 2 then (none, 0, n)
    else if pitch < n then bad stBadParam
    else (none, x14, pitch)

/-- The regions of a dense operand. -/
def denseRegion (own r fmt o k : Nat) : List (Nat × Nat) :=
  let n := denseRows fmt o k + denseScaleRows fmt o k
  if n = 0 then [] else [(tileAddr own r, n)]

/-- The checks of sp.mm, in this order: fields; groups that must be open; each descriptor under R91; dense operands; the
dispatch item; shapes; overlaps; the open (R145); the range (R149); the close; the predictor (R133). With ITEM_EN the whole
bitmap plane of A is read, so padding bits and overruns of lines that the item does not run over count as well, which the
spec leaves open. Two sparse operands whose formats do not go together are A's failure at check 3; where B's descriptor fails its
CRC or names no operand format there is no format to hold A's against, and A's other checks alone decide A's status.
Log entry 21: DEDUCED; log entry 84: DESIGN CHOICE. -/
def State.spCheck (s : State) (p : Nat) (o : Op) (f : SpF) : State × Except Rej SpReady :=
  let own := (s.ent p).logical
  let l := o.list
  let t := s.tile p
  let refA := if f.aSp then o.ref 25 else o.ix 25 16
  let refB := if f.bSp then o.ref 49 else o.ix 49 16
  if f.arrays = [] ∨ f.mrange = 0 ∨ f.mrange > 2048 ∨ (!f.bSp ∧ (f.n = 0 ∨ f.n > 512)) ∨ (!f.aSp ∧ f.m > 16383) ∨
      f.g.offsetsBad ∨ refA = none ∨ refB = none then
    (s, .error (Rej.plain stBadParam))
  else if !groupsReady t l f.arrays f.g then
    let (s, st, _) := s.takeGroups p l f.arrays f.g none
    (s, .error (Rej.plain st))
  else
    let (s, xa) := if f.aSp then s.readRef p refA else (s, none)
    let (s, xb) := if f.bSp then s.readRef p refB else (s, none)
    let (s, xc) := if f.cSp then s.readRef p (o.ref 73) else (s, none)
    let (s, xm) := if f.masked then s.readRef p (o.ref 97) else (s, none)
    let (s, xp) := if f.pred then s.readRef p (o.ref 121) else (s, none)
    let ta := tensorOf (xa.getD 0)
    let tb := tensorOf (xb.getD 0)
    let fa := if f.aSp then ta.fmt else o.f 41 4
    let fb := if f.bSp then tb.fmt else o.f 65 4
    let bKnown := !f.bSp || (crcOk64 (xb.getD 0) && isOperandFmt tb.fmt)
    let pair (ca cw : Nat) : Bool := comboAll t f.arrays f.g ca cw
    let r1 := s.roleCheck own f.aSp false 1 (fun c => isOperandFmt c && (!bKnown || pair c fb)) xa
    let r2 := s.roleCheck own f.bSp false 2 (fun c => isOperandFmt c && (f.aSp || pair fa c)) xb
    let r3 := s.roleCheck own f.cSp true 3 isOutputFmt xc
    let r4 := s.roleCheck own f.masked false 4 (fun c => c == 0) xm
    match Rej.firstOf [r1, r2, r3, r4] with
    | some r => (s, .error r)
    | none =>
      let k := if f.aSp then ta.kdim else if f.bSp then tb.kdim else f.k
      let kb := if f.bSp then tb.kdim else k
      let m := if f.aSp then ta.odim else f.m
      let n := if f.bSp then tb.odim else f.n
      let ra := refA.getD 0
      let rb := refB.getD 0
      let natural := naturalAnchor fa fb
      let tc := if f.cSp then xc.map tensorOf else none
      let tm := if f.masked then xm.map tensorOf else none
      let anchor := spAnchor s p f natural
      if !isOperandFmt fa ∨ !isOperandFmt fb ∨ !pair fa fb ∨ m > 16777215 then (s, .error (Rej.plain stBadParam))
      else if (!f.aSp ∧ densePasses ra fa m k) ∨ (!f.bSp ∧ densePasses rb fb n k) then (s, .error (Rej.plain stLength))
      else
        let (s, item) := if f.itemEn then s.readItem (s.x p l (o.f 207 4)) else (s, none)
        let itemBad : Bool := f.itemEn && (match item with
          | none => true
          | some i => decide (i.oblk ≥ cdiv m 8) ||
              (decide (i.nseg > 1) && f.arrays.any (fun a => (groupShape t a f.g).2.2 == 0)))
        let rows := match item with
          | some i => min 8 (m - 8 * i.oblk)
          | none => m
        if itemBad then (s, .error (Rej.plain stBadParam))
        else match shapeCheck k kb m n f anchor tc tm with
          | some r => (s, .error r)
          | none =>
            let inRegions := (if f.aSp then ta.regions else denseRegion own ra fa m k) ++
              (if f.bSp then tb.regions else denseRegion own rb fb n k)
            let maskRegions := match tm with
              | some t => t.regions
              | none => []
            let descRegions := (if f.aSp then ta.regions else []) ++ (if f.bSp then tb.regions else []) ++ maskRegions
            let outRegions := match tc with
              | some t => t.regions
              | none => []
            let cols := if f.cSp then some n else none
            let c := if f.g.opens then (f.arrays.map (fun a => openCheck t a f.g natural)).foldl
              (fun acc c => if acc = 0 then c else acc) 0 else 0
            let (closeBad, origin, pitch) := spCloseCheck t f cols (s.x p l 14) (s.x p l 15)
            let denseOut := if f.close ∧ !f.cSp then
                f.arrays.zipIdx.map (fun e =>
                  let (gr, gc, _) := groupShape t e.1 f.g
                  let rows := cdiv (gr * gc * fmtBytes f.outfmt) 512
                  (tileAddr own (f.outRow.getD 0 + e.2 * rows), rows))
              else []
            let (pc, pst) := if f.pred then
                (match xp with
                 | none => (0, stBadParam)
                 | some x => s.predCheck own x m k n (inRegions ++ maskRegions ++ outRegions ++ denseOut))
              else (0, stOk)
            if outRegions.any (fun r => descRegions.any (regionsMeet r)) then (s, .error (Rej.sparse stConflict 3 0))
            else if c ≠ 0 then (s, .error { status := checkStatus c, detail := c, ctr := 0x0A01 })
            else if !outputsFit t f.arrays f.g rows n then (s, .error (Rej.plain stLength))
            else match closeBad with
              | some r => (s, .error r)
              | none =>
                if pst ≠ stOk then (s, .error { status := pst, detail := roleDetail 5 pc, ctr := 0x0901 })
                else if f.pred ∧ (!f.close ∨ !f.g.opens ∨ f.g.mode ∨ f.g.bias) then 
                  (s, .error { status := stBadParam, detail := roleDetail 5 0, ctr := 0x0901 })
                else
                  let (s, a, fl1) := if f.aSp then s.readPattern ta false
                    else (s, denseOperand own ra fa m k, PatFlags.none)
                  let (s, b, fl2) := if f.bSp then s.readPattern tb false
                    else (s, denseOperand own rb fb n k, PatFlags.none)
                  let (s, mask, fl3) := match tm with
                    | some t => (fun r => (r.1, some r.2.1, r.2.2)) (s.readPattern t true)
                    | none => (s, none, PatFlags.none)
                  (s, .ok { a := a.restrict item, b := b, c := tc, mask := mask, pred := xp.map predOf, item := item,
                            flags := fl1.or (fl2.or fl3), origin := origin, pitch := pitch })

/-- Restricts a pattern to the blocks of a mask. -/
def patAnd (pat : List (List Nat)) (keep : Nat → Nat → Bool) : List (List Nat) :=
  pat.zipIdx.map (fun e => e.1.filter (fun cb => keep e.2 cb))

/-- The line pairs that pass 2 combines: panel after panel, M range after M range, each line with each M-block whose output
bit is set (R107). -/
def passTwoPairs (c : OutPat) (las : List Nat) (mrange : Nat) (rs : List (List (Nat × List Nat))) : List (Nat × Nat) :=
  rs.flatMap (fun r => (cut mrange las.length las).flatMap (fun range =>
    (r.flatMap (fun e => e.2)).flatMap (fun lb => (range.filter (fun la => c.holds la (lb / 4))).map (fun la => (la, lb)))))

/-- Positions of the blocks of B that a wide-shallow product reads: those of the panels whose passes run, and those of the missed
pairs `made` that the cleanup pass computes (R114, R140, R141). -/
def passNeed (b : Operand) (c : OutPat) (las : List Nat) (rs : List (List (Nat × List Nat))) (made : List (Nat × Nat)) :
    List Nat :=
  let run := (rs.flatMap id).flatMap (fun e => if las.any (fun la => c.needs la e.2) then e.2 else [])
  let lines := (List.range b.ob).filter (fun lb => run.contains lb || made.any (fun x => x.2 == lb / 4))
  lines.flatMap (fun lb => (b.lines.getD lb []).map (fun e => e.2))

/-- The product of an operation that has passed its checks. An operand with no present block has no line pair combined in pass 2
and the arrays take no step for it (R50), though pass 1 examined its pairs; the spec does not say it of pass 2. With M = 0 and
CLOSE_EN = 1 the groups of a dense output are closed and written, where R51 says that nothing is written.
Log entry 84: DESIGN CHOICE. -/
def State.spRun (s : State) (p : Nat) (o : Op) (f : SpF) (q : SpReady) : Outcome :=
  let l := o.list
  let a := q.a
  let b := q.b
  let m := a.odim
  let own := (s.ent p).logical
  let wide := b.dense && wideForm f.form m
  let s := s.countIf q.flags.pad 0x0401 p
  let s := s.countIf q.flags.overrun 0x0404 p
  let s := s.countIf (b.paired && !b.conf.all id) 0x0402 p
  -- prediction
  let predOn : Bool := match q.pred with
    | some d => d.mode != 0
    | none => false
  let (s, am0) := if predOn then s.gather a (a.lines.flatMap (fun l => l.map (fun e => e.2))) else (s, [])
  let works := a.count != 0 && b.count != 0 && m != 0
  let las := mblocks a q.item
  let bands := f.arrays.map (fun x => (x, bandsOf wide b.fmt (s.width p x)))
  let rs := rounds bands b.ob (b.ob + 1) 0
  let (s, guess) := match q.pred with
    | some d =>
      if d.mode ≠ 0 then
        s.predict p d a am0 b.odim works (fun la cols => wide && !f.cSp && las.contains la &&
          (rs.headD []).any (fun e => e.1 == d.array && e.2.any (fun lb => cols.contains (lb / 4))))
      else (s, { mask := [], missed := [] })
    | none => (s, { mask := [], missed := [] })
  let makeup := match q.pred with
    | some d => d.mode == 1
    | none => false
  let inMask (la cb : Nat) : Bool := match q.mask with
    | some k => (k.lines.getD la []).any (fun e => e.1 == cb)
    | none => true
  let guessed (la cb : Nat) : Bool := !predOn || (guess.mask.getD la []).contains cb
  let missed (la cb : Nat) : Bool := makeup && (guess.missed.getD la []).contains cb
  -- pass 1
  let pairs := passOnePairs a b q.item
  let (s, first) := if f.cSp then s.matchPairs p own a b 0 pairs else (s, pairs.map (fun e => (e, plainEntries a b e.1 e.2)))
  let base := passOne a b first q.item
  let pat := patAnd base (fun la cb => inMask la cb && (guessed la cb || missed la cb))
  let blocks := (pat.map List.length).foldl (· + ·) 0
  if (match q.c with
      | some t => decide (blocks > t.nnzb)
      | none => false) then failOut (s.count1 0x0403 p) stLength (roleDetail 3 0)
  else
    let (s, _, _) := s.takeGroups p l f.arrays f.g (naturalAnchor a.fmt b.fmt)
    let s := f.arrays.foldl (fun s x => s.addPositions p x f.g.gid a.kdim) s
    let s := if f.form = 2 ∧ !b.dense then f.arrays.foldl (fun s x => s.count1 0x0101 (4 * p + x)) s else s
    -- pass 2
    let owner (lb : Nat) : Nat :=
      ((rs.flatMap (fun r => r)).find? (fun e => e.2.contains lb)).elim 0 (fun e => e.1)
    let cNum : OutPat := if f.cSp || predOn then some (patAnd pat (fun la cb => guessed la cb)) else none
    let made := (pat.zipIdx.flatMap (fun e => (e.1.filter (fun cb => !guessed e.2 cb)).map (fun cb => (e.2, cb))))
    let s := if works then s.rampUp p (f.arrays ++ (match q.pred with
        | some d => if predOn && d.engine && !f.arrays.contains d.array then [d.array] else []
        | none => [])) else s
    let live : OutPat := if f.cSp then some pat else none
    let before := if f.cSp then pairs.length * lineCombines a b else 0
    let (s, ms) := if works then s.matchPairs p own a b before (passTwoPairs live las f.mrange rs) else (s, [])
    let aNeed := ms.flatMap (fun e => e.2.map (fun x => x.posA))
    let bNeed := if wide then passNeed b cNum las rs made else
      (List.range b.ob).flatMap (fun lb =>
        let ch := ms.chunks las lb (chunksOf (chunkSize b.fmt) (b.lines.getD lb []))
        (liveChunks a ms live ch lb las).flatMap (fun i => (ch.getD i []).map (fun e => e.2)))
    let (s, am) := if !works then (s, []) else if predOn then (s, am0) else s.gather a aNeed
    let (s, bm) := if works then s.gather b bNeed else (s, [])
    -- numeric phase
    let num : Numeric := if works ∨ !wide then
        s.numeric p f.g.gid f.g a b am bm ms live cNum q.item wide f.mrange rs (guess.rowsBeside q.pred)
      else { s := s, fl := FxFlags.none, sets := 0, skipped := 0, uses := 0, rows := 0 }
    let (s, fl) := if works then num.s.cleanup p f.g.gid f.g a b am bm ms q.item owner made num.fl else (num.s, num.fl)
    let s := if num.uses = 0 then s else f.arrays.foldl (fun s x => s.starve p x num.uses) s
    let s := s.count 0x0904 p made.length
    let s := (s.count 0x0405 p num.skipped).count 0x0406 p num.sets
    let s := s.countFx p fl
    -- close and output
    let thresh := q.pred.map (fun d => f32Val d.thresh)
    let s := if !f.close then s
      else match q.c with
        | some t => s.closeSparse p l f t a b pat q.item owner thresh q.origin q.pitch
        | none => s.closeDense p l f thresh q.origin q.pitch
    { s := s, res0 := if f.cSp then blocks else 0, res1 := num.sets, wide := wide && works, rows := num.rows }

/-- sp.mm: rejected, or performed. -/
def opSpMm (p : Nat) (o : Op) (s : State) : Outcome :=
  let f := o.spF
  let s := s.nameGroups p o.list f.arrays f.g.gid
  match s.spCheck p o f with
  | (s, .error r) => failOut (if r.ctr = 0 then s else s.count r.ctr p r.times) r.status r.detail
  | (s, .ok q) => s.spRun p o f q

/-- Arrays that sp.mm occupies: those of ARRAY_MASK, and PRED_ARRAY where the predictor runs on an array. -/
def spUnits (s : State) (p : Nat) (o : Op) : List TileUnit :=
  let own := setBits 4 (o.f 16 4)
  let more := if bit o.bits 24 then
      match (s.readRef p (o.ref 121)).2 with
      | some x => if (predOf x).engine ∧ (predOf x).mode ≠ 0 ∧ !own.contains (predOf x).array then [(predOf x).array] else []
      | none => []
    else []
  (own ++ more).map TileUnit.arr

/-- sp.mm (R176). -/
def execSpMm (t l : Nat) (s : State) : Result :=
  .next (s.issue t l false (fun c => c == 0x21) (fun p o s => (opSpMm p o s).later p o (spUnits s p o) [] []))

end Sys2Proof.Machine
end

