-- ==== Sys2Proof/Machine/Merge.lean ====
section
/-! DEFINITION. mrg.run (R115-R118, Table 05-6), and the dispatcher: disp.run (R125-R128) and ctl.dfind (R177). -/

namespace Sys2Proof.Machine

/-! ### Merge -/

/-- A partial as the merge reads it. -/
structure Partial where
  t     : Tensor
  o     : Operand
  data  : Blocks

/-- The accumulator format whose elements a partial holds: 1 FP32, 2 FX64. -/
def partialAcc (fmt : Nat) : Nat := if fmt = 10 then 2 else 1

/-- Element `e` of line `j` of a block as a bit pattern, when partial `q` holds the block. -/
def Partial.elem (q : Partial) (la cb j e : Nat) : Option Nat :=
  (q.o.pos la cb).map (fun n => blockRaw q.t.fmt (Sparse.get (0, 0) q.data n) j e)

/-- The sum of an element over the contributing partials in ascending SEG order, the first taken as it is (R117). -/
def mergeElem (acc : Nat) : List Nat → Nat
  | [] => 0
  | x :: l => l.foldl (fun a b => contribute acc a b) x

/-- A rejection: the merge counts once as rejected (R116). Log entry 33: DEDUCED. -/
def mergeReject (s : State) (p status role check seg : Nat) : Outcome :=
  { s := s.count1 0x0403 p, status := status, detail := roleDetail role check, res1 := seg }

/-- The partials that fail R91, in ascending SEG order: number and failing check. Log entry 21: DEDUCED. -/
def badPartials (s : State) (own : Nat) (l : List (Option Nat)) : List (Nat × Nat) :=
  l.zipIdx.filterMap (fun e =>
    match e.1 with
    | none => some (e.2, 0)
    | some x =>
      let c := s.tensorCheck own false (fun _ => true) x
      if c ≠ 0 then some (e.2, c) else none)

/-- Reads a list of descriptor references. -/
def State.readRefs (s : State) (p : Nat) : List Nat → State × List (Option Nat)
  | [] => (s, [])
  | r :: rs =>
    let (s, x) := s.readRef p (some r)
    let (s, xs) := State.readRefs s p rs
    (s, x :: xs)

/-- The merge as a whole (R116): BAD_PARAM when it does not hold together. -/
def mergeWholeBad (segments outfmt : Nat) (out : Tensor) (parts : List Tensor) : Bool :=
  match parts with
  | [] => true
  | q :: _ =>
    decide (segments = 0 ∨ segments > 12) || parts.any (fun t => t.fmt != 9 && t.fmt != 10) ||
    parts.any (fun t => t.fmt != q.fmt || t.kdim != q.kdim || t.odim != q.odim) ||
    (q.fmt == 10 && parts.any (fun t => t.anchor != q.anchor)) ||
    out.kdim != q.kdim || out.odim != q.odim || out.fmt != outfmt || !closeFmtOk (partialAcc q.fmt) outfmt ||
    (outfmt == 10 && out.anchor != q.anchor)

/-- Reads the patterns of the partials. -/
def State.readPartials (s : State) : List Tensor → State × List (Tensor × Operand) × PatFlags
  | [] => (s, [], PatFlags.none)
  | t :: ts =>
    let (s, o, f) := s.readPattern t false
    let (s, os, g) := State.readPartials s ts
    (s, (t, o) :: os, f.or g)

/-- Gathers every present block of the partials. -/
def State.gatherPartials (s : State) : List (Tensor × Operand) → State × List Partial
  | [] => (s, [])
  | (t, o) :: l =>
    let (s, m) := s.gather o (o.lines.flatMap (fun l => l.map (fun e => e.2)))
    let (s, ps) := State.gatherPartials s l
    (s, ⟨t, o, m⟩ :: ps)

/-- The union of the partials' bitmap row `r`, with one combine for each partial: its row with that of the partial before it,
the first with itself (R118). What R93 withholds is absent. Log entry 23: DESIGN CHOICE. -/
def State.unionRow (s : State) (p own line r valid : Nat) (parts : List Operand) : State × Nat :=
  let at_ (o : Operand) : Option Place := o.plane.place.map (fun q => q.plus r)
  let bits (o : Operand) : Nat := o.plane.rows.getD r 0
  let present (o : Operand) (x i : Nat) : Bool := (o.bitPos line r x i).isSome
  ((parts.headD (denseOperand 0 0 0 0 0) :: parts).zip parts).foldl (fun acc e =>
    let (s, x, y) := acc.1.combinePlaces p own (at_ e.1) (at_ e.2) (bits e.1) (bits e.2)
    (s, acc.2 ||| ((List.range valid).filter (fun i =>
      (bit x i && present e.1 x i) || (bit y i && present e.2 y i))).foldl (fun n i => n + 2 ^ i) 0)) (s, 0)

/-- The output pattern of a merge: the union of the partials' lines (R117). -/
def State.unionLines (s : State) (p own : Nat) (out : Tensor) (parts : List Operand) : State × List (List Nat) :=
  loop out.ob (s, []) (fun acc la =>
    let (s, l) := loop out.lineRows (acc.1, []) (fun acc g =>
      let (s, x) := acc.1.unionRow p own la (la * out.lineRows + g) (min 4096 (out.kb - 4096 * g)) parts
      (s, acc.2 ++ (setBits 4096 x).map (fun i => 4096 * g + i)))
    (s, acc.2 ++ [l]))

/-- The output of a merge that has passed its checks (R117). -/
def State.mergeRun (s : State) (p l outfmt round stream draw origin pitch : Nat) (out : Tensor)
    (parts : List (Tensor × Operand)) : Outcome :=
  let has (la cb : Nat) : Nat := (parts.filter (fun q => q.2.hasBlock la cb)).length
  let (s, pat) := s.unionLines p (s.ent p).logical out (parts.map (fun q => q.2))
  let blocks := (pat.map List.length).foldl (· + ·) 0
  if blocks > out.nnzb then mergeReject s p stLength 7 0 0
  else
    let (s, ps) := s.gatherPartials parts
    let coincident := (pat.zipIdx.map (fun e => (e.1.filter (fun cb => has e.2 cb > 1)).length)).foldl (· + ·) 0
    let s := s.count 0x0601 p coincident
    let acc := partialAcc ((parts.map (fun q => q.1.fmt)).headD 9)
    let anchor := (parts.map (fun q => q.1.anchor)).headD 0
    let places := pat.zipIdx.flatMap (fun e => e.1.flatMap (fun cb => (List.range 8).flatMap (fun i =>
      tabulate 32 (fun k => (e.2, cb, i, k)))))
    let inside (q : Nat × Nat × Nat × Nat) : Bool := 8 * q.1 + q.2.2.1 < out.odim && 32 * q.2.1 + q.2.2.2 < out.kdim
    let real := places.filter inside
    let es := real.map (fun q =>
      (mergeElem acc (ps.filterMap (fun x => x.elem q.1 q.2.1 q.2.2.1 q.2.2.2)),
       origin + (8 * q.1 + q.2.2.1) * pitch + (32 * q.2.1 + q.2.2.2)))
    let (s, bits) := s.closeElems p l acc anchor outfmt round stream draw none es
    let vals := real.zip bits
    let value (q : Nat × Nat × Nat × Nat) : Nat :=
      match vals.find? (fun e => e.1 == q) with
      | some e => e.2
      | none => Config.edge bits (q.1 * 2 ^ 40 + q.2.1 * 2 ^ 16 + q.2.2.1 * 32 + q.2.2.2)
    let data := (cut 256 blocks places).map (fun b => packElems (fmtBits out.fmt) (b.map value))
    { s := s.writeTensor out pat data, res0 := blocks }

/-- FX64 partials whose anchors are not all the same (R159). -/
def anchorsDiffer (parts : List Tensor) : Bool :=
  let fx := (parts.filter (fun t => t.fmt == 10)).map (fun t => t.anchor)
  fx.any (fun x => x != fx.headD 0)

/-- mrg.run. The pairs of a partial with PAIRED = 1 are not checked and never count, which the spec leaves open; the same
holds of the operand of disp.run. Where several descriptors fail, R92 counts each in ctr.sparse.desc_reject and R116 the merge
once; the model follows R116. Log entry 84: DESIGN CHOICE. -/
def opMrgRun (p : Nat) (o : Op) (s : State) : Outcome :=
  let own := (s.ent p).logical
  match s.readRef p (o.ref 16) with
  | (s, none) => mergeReject s p stBadParam 7 0 0
  | (s, some x) =>
    let segments := fld x 0 4
    let outfmt := fld x 4 4
    let round := fld x 8 2
    let n := min segments 12
    if !crcOk64 x then mergeReject s p stBadCrc 7 0 0
    else if fld x 10 6 ≠ 0 ∨ fld x 40 24 ≠ 0 ∨ fld x (128 + 24 * n) (288 - 24 * n) ≠ 0 ∨ fld x 416 64 ≠ 0 ∨
        (16 :: (List.range n).map (fun i => 128 + 24 * i)).any (fun lo => fld x (lo + 16) 5 != 0) then
      mergeReject s p stBadParam 7 0 0
    else
      let (s, out) := s.readRef p (some (fld x 16 24))
      let (s, xs) := s.readRefs p ((List.range n).map (fun i => fld x (128 + 24 * i) 24))
      let bad := badPartials s own xs
      match out with
      | none => mergeReject s p stBadParam 3 0 0
      | some ox =>
        let c := s.tensorCheck own true isOutputFmt ox
        if c ≠ 0 then mergeReject s p (tensorStatus c) 3 c 0
        else match bad with
          | (i, c) :: _ => mergeReject s p (if c = 0 then stBadParam else tensorStatus c) 9 c i
          | [] =>
            let ot := tensorOf ox
            let ts := xs.filterMap (fun e => e.map tensorOf)
            let stochastic : Bool := round == 2 && outfmt != 10
            let x15 := s.x p o.list 15
            let pitch := if stochastic && x15 != 0 then x15 else ot.kdim
            if mergeWholeBad segments outfmt ot ts ∨ round = 3 ∨ pitch < ot.kdim then
              mergeReject (s.countIf (anchorsDiffer ts) 0x0A02 p) p stBadParam 7 0 0
            else if ot.regions.any (fun r => ts.any (fun t => t.regions.any (regionsMeet r))) then
              mergeReject s p stConflict 7 0 0
            else
              let (s, parts, fl) := s.readPartials ts
              let s := s.countIf fl.pad 0x0401 p
              let s := s.countIf fl.overrun 0x0404 p
              s.mergeRun p o.list outfmt round (fld x 64 32) (fld x 96 32) (if stochastic then s.x p o.list 14 else 0)
                pitch ot parts

/-- mrg.run (R116-R118). -/
def execMrgRun (t l : Nat) (s : State) : Result :=
  .next (s.issue t l false (fun c => c == 0x38) (fun p o s => (opMrgRun p o s).later p o [.conc] [] []))

/-! ### Dispatch -/

/-- The dispatch descriptor (Table 06-3). -/
structure Disp where
  operand   : Nat
  tileFirst : Nat
  tileCount : Nat
  splitQ    : Nat
  maxSegs   : Nat
  tableRow  : Nat
  tableCap  : Nat
deriving DecidableEq, Repr

def dispOf (x : Nat) : Disp :=
  { operand := fld x 0 24, tileFirst := fld x 24 10, tileCount := fld x 34 11, splitQ := fld x 45 8,
    maxSegs := fld x 53 4, tableRow := fld x 64 16, tableCap := fld x 96 32 }

/-- Reserved fields and ranges of a dispatch descriptor, the row of its OPERAND reference among them (R115, R126, check 2). -/
def dispFieldsOk (x : Nat) : Bool :=
  let d := dispOf x
  decide (fld x 0 16 < 0x6000) && fld x 16 5 == 0 && fld x 57 7 == 0 && fld x 80 16 == 0 && fld x 128 352 == 0 && decide (1 ≤ d.tileCount) &&
  decide (d.tileCount ≤ 1024) && decide (d.tileFirst + d.tileCount ≤ 1024) && decide (2 ≤ d.maxSegs) &&
  decide (d.maxSegs ≤ 12) && decide (d.tableRow < 0x6000) && decide (1 ≤ d.tableCap) && decide (d.tableCap ≤ 786432)

/-- Items of the plan before their tiles: O-block, first rank, count, segment, segments. -/
abbrev PlanItem := Nat × Nat × Nat × Nat × Nat

/-- The items of O-block `l` with `n` present blocks (R127). -/
def planRow (d : Disp) (total ob l n : Nat) : List PlanItem :=
  if d.splitQ > 0 ∧ 4 * ob * n > d.splitQ * total then
    let nseg := min d.maxSegs (cdiv n (cdiv (d.splitQ * total) (4 * ob)))
    tabulate nseg (fun s => (l, s * n / nseg, (s + 1) * n / nseg - s * n / nseg, s, nseg))
  else [(l, 0, n, 0, 1)]

/-- Tiles in list order from the prefix count `q`. -/
def placeItems (d : Disp) (total : Nat) : List PlanItem → Nat → List (PlanItem × Nat)
  | [], _ => []
  | it :: l, q =>
    (it, d.tileFirst + (if total = 0 then 0 else q * d.tileCount / total)) :: placeItems d total l (q + it.2.2.1)

def plan (d : Disp) (counts : List Nat) : List (PlanItem × Nat) :=
  let total := counts.foldl (· + ·) 0
  placeItems d total (counts.zipIdx.flatMap (fun e => planRow d total counts.length e.2 e.1)) 0

/-- A dispatch table entry (Table 06-4). The O-blocks after the last present block come to TILE_FIRST + TILE_COUNT (R127), a tile
past the set; where that is 1,024 it does not fit TILE, which holds it modulo 1,024. Log entry 84: DESIGN CHOICE. -/
def dispEntry (e : PlanItem × Nat) : Nat :=
  pack [(0, 32, e.1.1), (32, 32, e.1.2.1), (64, 32, e.1.2.2.1), (96, 4, e.1.2.2.2.1), (100, 4, e.1.2.2.2.2), (104, 10, e.2)]

def dispReject (s : State) (p status check : Nat) : Outcome :=
  failOut (s.count1 0x0801 p) status (roleDetail 6 check)

/-- disp.run, and the tiles whose signal it increments (R177). The plan is made from the bitmap alone: the operand's index is
not read (R127). Any tile may issue it, and the table goes to the tile that does, TILE_FIRST or not; the spec states no check.
Log entry 16: DEDUCED; log entry 84: DESIGN CHOICE. -/
def opDispRun (p : Nat) (o : Op) (s : State) : Outcome × List Nat :=
  let own := (s.ent p).logical
  match s.readRef p (o.ref 16) with
  | (s, none) => (dispReject s p stBadParam 0, [])
  | (s, some x) =>
    let d := dispOf x
    let tiles := (span d.tileFirst d.tileCount).filter (fun t => t < numTiles)
    if !crcOk64 x then (dispReject s p stBadCrc 1, tiles)
    else if !dispFieldsOk x then (dispReject s p stBadParam 2, tiles)
    else match s.readRef p (some d.operand) with
      | (s, none) => (dispReject (s.count1 0x0403 p) p stBadParam 3, tiles)
      | (s, some y) =>
        let c := s.tensorCheck own false isOperandFmt y
        if c ≠ 0 then (dispReject (s.count1 0x0403 p) p (tensorStatus c) 3, tiles)
        else
          let t := { tensorOf y with hasIndex := false, index := 0 }
          let (s, a, fl) := s.readPattern t false
          let s := s.countIf fl.pad 0x0401 p
          let s := s.countIf fl.overrun 0x0404 p
          let items := plan d (a.lines.map List.length)
          if items.length > d.tableCap ∨ d.tableRow + cdiv d.tableCap 32 > 0x6000 then (dispReject s p stLength 4, tiles)
          else
            let split := items.filter (fun e => e.1.2.2.2.2 > 1 ∧ e.1.2.2.2.1 = 0)
            let s := s.count 0x0802 p split.length
            let s := s.count 0x0803 p ((split.map (fun e => e.1.2.2.2.2)).foldl (· + ·) 0)
            let s := writeRows s p d.tableRow (rowsOfNat (cdiv items.length 32) (packElems 128 (items.map dispEntry)))
            ({ s := s, res0 := items.length, res1 := split.length }, tiles)

/-- disp.run. -/
def execDispRun (t l : Nat) (s : State) : Result :=
  .next (s.issue t l false (fun c => c == 0x39) (fun p o s =>
    let r := opDispRun p o s
    r.1.later p o [.conc] [] r.2))

/-- The TILE fields of the first `cap` entries of a dispatch table, as its rows read. Log entry 14: DEDUCED. -/
def tableTiles (s : State) (q row cap : Nat) : List Nat :=
  tabulate cap (fun i => fld (elem 128 (readRow s q (row + i / 32)).2.toNat (i % 32)) 104 10)

/-- Log entry 29: DESIGN CHOICE. -/
def ascending : List Nat → Bool
  | a :: b :: l => decide (a ≤ b) && ascending (b :: l)
  | _ => true

/-- The rows that a binary search of the tiles reads: the middle of what is left, ceil(log2 R) times, and the row it ends in
(R177). Each is read through the checked path. Log entry 29: DESIGN CHOICE. -/
def State.searchRows (s : State) (q row own lo hi : Nat) : Nat → State
  | 0 => (readRow s q (row + lo)).1
  | n + 1 =>
    let mid := (lo + hi) / 2
    let (s, x) := readRow s q (row + mid)
    if fld x.toNat 104 10 < own ∧ lo < mid then State.searchRows s q row own mid hi n
    else State.searchRows s q row own lo mid n

/-- ctl.dfind: the locator of this tile's first entry, and how many it has. On a table whose TILE fields are not in
order the search's answers are left open, the same on every run (R2). Log entry 29: DESIGN CHOICE. -/
def opDfind (p : Nat) (o : Op) (s : State) : Outcome :=
  let own := (s.ent p).logical
  let tile := o.f 24 10
  let row := o.f 34 16
  let cap := o.f 50 20
  match s.phys tile with
  | none => failOut s stBadParam 0
  | some q =>
    if row ≥ 0x6000 then failOut s stBadParam 0
    else if row + cdiv cap 32 > 0x6000 then failOut s stLength 0
    else
      let ts := tableTiles s q row cap
      let n := cdiv cap 32
      let s := if n = 0 then s else s.searchRows q row own 0 n (if n = 1 then 0 else Nat.log2 (n - 1) + 1)
      let put (s : State) (d c : Nat) : Outcome := { s := s, writes := [(o.f 16 4, d), (o.f 20 4, c)] }
      if !ascending ts then put s (Config.dfind ts own 0) (Config.dfind ts own 1)
      else
        match ts.findIdx? (fun t => t == own) with
        | none => put s 0 0
        | some i => put s (tileAddr tile row + 16 * i) (ts.filter (fun t => t == own)).length

/-- ctl.dfind interlocks XD and XC until its last row is read (R169). -/
def execCtlDfind (t l : Nat) (s : State) : Result :=
  .next (s.issue t l false (fun c => c == 0x08) (fun p o s => (opDfind p o s).later p o [] [o.f 16 4, o.f 20 4] []))

end Sys2Proof.Machine
end

