-- ==== Sys2Proof/Machine/Power.lean ====
section
/-! DEFINITION. Resets and losses of power (R378, R403, R406, R413), the power cap, rails and rations (R407-R411), thermal
actions (R412, Table 17-4), coolant (R414), and sys.power, sys.telemetry and sys.reset. Temperatures are in 1/16 C (R434),
voltages in mV, flow in mL/min. -/

namespace Sys2Proof.Machine

/-! ### Rails and rations (R410) -/

/-- Rail that Curator asks for; 0.72 V from phase 3 (R407). -/
def Power.vcoreAsk (w : Power) (d : Nat) : Nat := Sparse.get 720 w.vcore d
/-- Rail that heat asks for; 800 mV asks for nothing. -/
def Power.heatAsk (w : Power) (d : Nat) : Nat := Sparse.get 800 w.thermRail d
/-- VCORE(d): the lowest rail asked for. -/
def Power.rail (w : Power) (d : Nat) : Nat := min (w.vcoreAsk d) (w.heatAsk d)
/-- Ration that Curator asks for, in sixteenths. -/
def Power.rationAsk (w : Power) (d : Nat) : Nat := Sparse.get 16 w.ration d

/-- The two dies that drive a stack (Table 01-2). -/
def stackDies (m : Nat) : List Nat := if m < 8 then [m, m + 8] else [m + 8, m + 16]
/-- The stack that a die drives half of. -/
def stackOfDie (d : Nat) : Nat := 8 * (d / 16) + d % 8

/-- A thermal action or the limiter holds a die at 8/16. -/
def Power.held (w : Power) (d : Nat) : Bool :=
  w.peak || w.capHold || Sparse.get false w.dieHot d || Sparse.get false w.stackHot (stackOfDie d)

/-- The ration that a die runs at. -/
def Power.rationOf (w : Power) (d : Nat) : Nat := if w.held d then min 8 (w.rationAsk d) else w.rationAsk d

/-- Changes the power state, and counts the dies whose ration falls. -/
def State.setPower (s : State) (w : Power) : State :=
  let low := (List.range 32).filter (fun d => decide (w.rationOf d < s.power.rationOf d))
  low.foldl (fun s d => s.count1 0x1F02 d) { s with power := w }

/-- The effective cap in W (R408). -/
def Power.effCap (w : Power) : Nat := min (min w.liveCap (750 * w.flow / 1000)) 12000

/-! ### Resets -/

/-- What a reset leaves (R378): the flash, the fuses and what the world outside holds. `hbm` keeps the contents of HBM, and
`acc` the accumulator rows, whose elements a reset leaves unchanged (Table 03-4) until phase 3 tests the tile.
Counters and the trace begin anew (R425); whether a die's reference clock is missing is no state of the block (R379). Log entry 4: DESIGN CHOICE; log entry 67: DESIGN CHOICE. -/
def State.wipe (s : State) (hbm acc : Bool) : State :=
  let r := State.reset
  let w := s.power
  { r with
    pending := s.pending
    tiles := Sparse.mapVals Tile.reset s.tiles (fun t =>
      { Tile.reset with
        rows := if acc then Sparse.filterKeys t.rows (fun r => decide (0x8000 ≤ r)) else []
        fresh := if acc then t.fresh else []
        banks := Sparse.mapVals Bank.reset t.banks (fun k =>
          { Bank.reset with faults := Sparse.mapVals [] k.faults permanentOnly }) })
    mem := { Memory.reset with
      hbm := if hbm then s.mem.hbm else []
      hbmFaults := if hbm then s.mem.hbmFaults else Sparse.mapVals [] s.mem.hbmFaults lasting
      comp := s.mem.comp }
    tx := s.tx
    boot := { Boot.reset with
      flash0 := s.boot.flash0
      flash1 := s.boot.flash1
      noRef0 := (s.clock 0).lost
      noRef7 := (s.clock 7).lost }
    fuses := s.fuses
    contacts := s.contacts
    clocks := Sparse.mapVals Clock.reset s.clocks (fun c => { count := 0, lost := c.lost })
    power := { w with liveCap := 12000, vcore := [], thermRail := [], ration := [], peak := false, capHold := false }
    free := s.free }

/-- All work stops and the core, HBM and PHY rails are off (R406). -/
def State.stopAll (s : State) : State :=
  let s := s.wipe false false
  { s with boot := { s.boot with phase := 0 }, power := { s.power with rails := false } }

/-- Phase 1 begins. -/
def State.fullReset (s : State) : State := s.wipe false true

/-- Phase 2 begins on the strip in use; HBM keeps its contents. -/
def State.warmReset (s : State) : State :=
  let b := s.boot
  let s := s.wipe true true
  { s with boot := { s.boot with
      phase := 2
      warm := true
      strip := b.strip
      stripFailed := b.stripFailed
      stripTold := b.stripTold
      second := b.second
      d0 := b.d0
      d7 := b.d7 } }

/-- sys.reset: the reply is sent before the reset begins. -/
def execSysReset (n : Nat) (s : State) : Result :=
  .next (s.run n 0x0103 (fun c s =>
    let s := s.finalOk n []
    if c.arg 0 = 1 then s.fullReset else s.warmReset))

/-! ### The input (R403, R404, R406, R420) -/

def State.updPower (s : State) (f : Power → Power) : State := { s with power := f s.power }

def badInput (mv : Nat) : Bool := decide (mv < 40000) || decide (60000 < mv)

/-- The housekeeping converter starts; I3C_ADDR is read (R420). Log entry 67: DESIGN CHOICE. -/
def execInputRise (mv : Nat) (s : State) : Result :=
  .next (if 38000 < mv ∧ mv ≤ 62000 ∧ !s.power.housekeeping then
      let read : Contacts := { s.contacts with i3cStatic := 0x58 + s.contacts.strap, i3cDynamic := none }
      ({ s with contacts := read } : State).updPower (fun w =>
        { w with housekeeping := true, inputMv := mv, inputBad := badInput mv, overVolt := w.overVolt && decide (60000 ≤ mv) })
    else s)

/-- The housekeeping rails are in regulation. -/
def execPwrGoodRise (s : State) : Result :=
  .next (if s.power.housekeeping ∧ !s.power.tripped ∧ !s.power.overVolt then s.updPower (fun w => { w with pwrGood := true }) else s)

/-- The input falls below 36 V. -/
def execInputLoss (mv : Nat) (s : State) : Result :=
  .next (if mv < 36000 ∧ s.power.housekeeping then
      s.stopAll.updPower (fun w => { w with housekeeping := false, pwrGood := false, inputMv := mv, inputBad := true,
                                            overVolt := false })
    else s)

/-- Above 62 V every rail is switched off and PWR_GOOD falls. -/
def execInputOvervoltage (mv : Nat) (s : State) : Result :=
  .next (if 62000 < mv then
      s.stopAll.updPower (fun w => { w with housekeeping := false, pwrGood := false, inputMv := mv, inputBad := true,
                                            overVolt := true })
    else s)

/-- The input leaves or enters 40-60 V. After an overvoltage, the fall below 60 V lets the module power on again.
Log entry 67: DESIGN CHOICE. -/
def execInputOutOfRange (mv : Nat) (s : State) : Result :=
  .next (if mv < 36000 ∨ 62000 < mv then s
    else s.updPower (fun w =>
      let again := w.overVolt && decide (mv < 60000)
      { w with inputMv := mv, inputBad := badInput mv, overVolt := w.overVolt && !again,
               housekeeping := w.housekeeping || again }))

def execRailLeavesRegulation (s : State) : Result := .next (s.updPower (fun w => { w with pwrGood := false }))

/-- Every sensor last read 95 C or less (R413). Log entry 65: DESIGN CHOICE. -/
def Power.cool (w : Power) : Bool :=
  w.dieT.all (fun e => decide (e.2 ≤ 95 * 16)) && w.stackT.all (fun e => decide (e.2 ≤ 95 * 16))

/-- RESET_N falls and stays low for `us` microseconds; a low of 10 us or more clears a trip where the sensors already read 95 C or
less. Below 1 us it is ignored. Log entry 66: DESIGN CHOICE. -/
def execResetNFall (us : Nat) (s : State) : Result :=
  .next (if us = 0 then s
    else s.stopAll.updPower (fun w => { w with resetHigh := false, lowLeft := us, tripped := w.tripped && (decide (us < 10) || !w.cool) }))

/-- RESET_N rises: every counter is zero (R425), and start-up begins when the conditions of R404 hold. Log entry 66: DESIGN CHOICE. -/
def execResetNRise (s : State) : Result :=
  .next (if s.power.resetHigh then s
    else
      let s := { s with counters := [], trace := { buf := [], seq := 0 } }.updPower (fun w => { w with resetHigh := true, lowLeft := 0 })
      let w := s.power
      if w.housekeeping ∧ w.pwrGood ∧ !w.tripped ∧ !w.overVolt ∧ !badInput w.inputMv then
        { s with boot := { s.boot with phase := 1, noRef0 := (s.clock 0).lost, noRef7 := (s.clock 7).lost } }
      else s)

/-! ### Power (R409, R411) -/

/-- Curator's rail of a die, raised by 5 mV where R409 lets it. -/
def raiseRail (v : Nat) (temp : Int) : Nat :=
  let top := if temp ≤ 85 * 16 then 800 else 720
  if v < top then v + 5 else v

/-- One interval of R409 with input power `watts`: the power state, and whether anything was lowered. -/
def Power.interval (w : Power) (watts : Nat) : Power × Bool :=
  let cap := w.effCap
  let dies := List.range 32
  if cap < watts then
    if dies.any (fun d => decide (650 < w.vcoreAsk d)) then
      ({ w with vcore := dies.foldl (fun m d => Sparse.set 720 m d (max 650 (w.vcoreAsk d - 5))) w.vcore }, true)
    else
      ({ w with ration := dies.foldl (fun m d => Sparse.set 16 m d (max 1 (w.rationAsk d - 1))) w.ration },
       dies.any (fun d => decide (1 < w.rationAsk d)))
  else if 100 * watts ≤ 95 * cap then
    if dies.any (fun d => decide (w.rationAsk d < 16)) then
      ({ w with ration := dies.foldl (fun m d => Sparse.set 16 m d (min 16 (w.rationAsk d + 1))) w.ration }, false)
    else
      ({ w with vcore := dies.foldl (fun m d =>
          Sparse.set 720 m d (raiseRail (w.vcoreAsk d) (Sparse.get 0 w.dieT d))) w.vcore }, false)
  else (w, false)

/-- Readings of the dies' hottest sensors; a die that reads 100 C or less releases the rail that heat asked for.
Log entry 65: DESIGN CHOICE. -/
def Power.readDies (w : Power) (temps : List Int) : Power :=
  temps.zipIdx.foldl (fun w e =>
    let w := { w with dieT := Sparse.set 0 w.dieT e.2 e.1 }
    if e.1 ≤ 100 * 16 then { w with thermRail := Sparse.set 800 w.thermRail e.2 800 } else w) w

def execPowerInterval (watts : Nat) (temps : List Int) (s : State) : Result :=
  .next (if !s.cur.ready then s
    else
      let w := s.power.readDies (temps.take 32)
      let (w, lowered) := w.interval watts
      (s.setPower w).countIf lowered 0x1F01 0)

/-- Over 13.2 kW averaged over 10 us. -/
def execPeakLimit (watts : Nat) (s : State) : Result :=
  .next (if 13200 < watts ∧ !s.power.peak ∧ s.power.rails then
      (s.setPower { s.power with peak := true }).count1 0x1F03 0
    else s)

/-- Above the effective cap for 10 ms without a break. -/
def execCapHold (watts : Nat) (s : State) : Result :=
  .next (if s.power.effCap < watts ∧ !s.power.capHold ∧ s.power.rails then
      (s.setPower { s.power with capHold := true }).count1 0x1F03 0
    else s)

def execLimiterRelease (watts : Nat) (s : State) : Result :=
  .next (s.setPower { s.power with
    peak := s.power.peak && decide (12000 ≤ watts), capHold := s.power.capHold && decide (s.power.effCap < watts) })

/-! ### Temperatures (Table 17-4) -/

/-- The sensors are read while RESET_N is low after a trip: it is cleared where they read 95 C or less and 10 us of the low are
still to come (R413). When within the low the reading falls is not stated, so what is left of it is free.
Log entry 66: DESIGN CHOICE. -/
def State.coolLow (s : State) : State :=
  if s.power.tripped ∧ !s.power.resetHigh then
    let (s, n) := s.draw
    let left := Config.choice n % (s.power.lowLeft + 1)
    s.updPower (fun w => { w with lowLeft := left, tripped := decide (left < 10) || !w.cool })
  else s

/-- A reading of a die's hottest sensor, or of a stack. -/
def State.readTemp (s : State) (onDie : Bool) (i : Nat) (temp : Int) : State :=
  (s.updPower (fun w =>
    if onDie then (if i < 32 then { w with dieT := Sparse.set 0 w.dieT i temp } else w)
    else if i < 16 then { w with stackT := Sparse.set 0 w.stackT i temp } else w)).coolLow

/-- One lowering of a die's rail for heat. -/
def execDieThrottle (d : Nat) (temp : Int) (s : State) : Result :=
  let s := s.readTemp true d temp
  .next (if d < 32 ∧ 100 * 16 < temp ∧ s.power.rails then
      let w := s.power
      let v := w.rail d
      if 650 < v then
        ({ s with power := { w with thermRail := Sparse.set 800 w.thermRail d (max 650 (v - 5)) } }).count1 0x2001 d
      else s
    else s)

def execDieOverTemp (d : Nat) (temp : Int) (s : State) : Result :=
  let s := s.readTemp true d temp
  .next (if d < 32 ∧ 105 * 16 < temp ∧ s.power.rails then
      let w := s.power
      if Sparse.get false w.dieHot d then s
      else (s.setPower { w with dieHot := Sparse.set false w.dieHot d true }).count1 0x2002 d
    else s)

/-- A stack above 85 C doubles its refresh; above 95 C its two dies are held, and the event counts on both. -/
def execStackHot (m : Nat) (temp : Int) (s : State) : Result :=
  let s := s.readTemp false m temp
  .next (if m < 16 ∧ 85 * 16 < temp ∧ s.power.rails then
      let w := { s.power with refresh2 := Sparse.set false s.power.refresh2 m true }
      if 95 * 16 < temp ∧ !Sparse.get false w.stackHot m then
        (stackDies m).foldl (fun s d => s.count1 0x2002 d)
          (s.setPower { w with stackHot := Sparse.set false w.stackHot m true })
      else { s with power := w }
    else s)

/-- A die at 100 C or less, or a stack at 90 C or less, ends its action. Log entry 65: DESIGN CHOICE. -/
def execOverTemperatureEnd (onDie : Bool) (i : Nat) (temp : Int) (s : State) : Result :=
  let s := s.readTemp onDie i temp
  .next (if onDie then
      if i < 32 ∧ temp ≤ 100 * 16 then
        s.updPower (fun w => { w with dieHot := Sparse.set false w.dieHot i false,
                                      thermRail := Sparse.set 800 w.thermRail i 800 })
      else s
    else if i < 16 ∧ temp ≤ 90 * 16 then
      s.updPower (fun w => { w with stackHot := Sparse.set false w.stackHot i false,
                                    refresh2 := if temp ≤ 85 * 16 then Sparse.set false w.refresh2 i false else w.refresh2 })
    else s)

/-- A die sensor at 110 C or a stack at 105 C (R413). -/
def execThermalTrip (onDie : Bool) (i : Nat) (temp : Int) (s : State) : Result :=
  let s := s.readTemp onDie i temp
  .next (if (if onDie then decide (i < 32) && decide (110 * 16 ≤ temp) else decide (i < 16) && decide (105 * 16 ≤ temp)) then
      s.stopAll.updPower (fun w => { w with tripped := true, pwrGood := false })
    else s)

/-! ### Coolant (R414) -/

def execLowFlow (mlpm : Nat) (s : State) : Result :=
  .next (if mlpm < 3000 then
      (s.updPower (fun w => { w with flow := mlpm, lowFlow := true })).countIf (!s.power.lowFlow) 0x2101 0
    else s)

def execFlowRestored (mlpm : Nat) (s : State) : Result :=
  .next (if 3000 ≤ mlpm then s.updPower (fun w => { w with flow := mlpm, lowFlow := false }) else s)

/-! ### Contacts (R420) -/

/-- ALERT_N is low. -/
def State.alert (s : State) : Bool :=
  s.power.dieHot.any (fun e => e.2) || s.power.stackHot.any (fun e => e.2) || s.power.lowFlow || s.power.inputBad

/-- THERM_TRIP_N is low. -/
def State.thermTripLow (s : State) : Bool := s.power.tripped

/-- XSPI_RESET_N is high: phase 2 has begun. Log entry 69: DEDUCED. -/
def State.xspiOut (s : State) : Bool := decide (2 ≤ s.boot.phase)

/-- The roles of B07 of J4 (R421). -/
inductive SharedContact where
  | pulledHigh
  | chipSelect
  | traceClock
deriving DecidableEq, Repr

/-- B07: pulled high until phase 2 probes it; then XSPI_CS1_N where a second flash answers, and TRACE_CLK where none does. -/
def State.b07 (s : State) : SharedContact :=
  if s.boot.second then .chipSelect else if s.boot.phase ≤ 2 then .pulledHigh else .traceClock

/-- The JTAG IDCODE (R420). -/
def jtagIdcode : BitVec 32 := 0xB3216A3D

/-- Xn_PERST_N is high: from training in phase 4 on, unless the port is failed. Log entry 69: DEDUCED. -/
def State.perstHigh (s : State) (x : Nat) : Bool := decide (4 ≤ s.boot.phase) && s.boot.phase != 6 && !s.phyFailed (x + 1)

/-! ### Commands -/

/-- A reading that no command of the table delivers. Log entry 3: DESIGN CHOICE. -/
def State.freeReading (s : State) (item scope : Nat) : State × Nat :=
  let (s, d) := s.draw
  (s, Config.reading item scope d % 2 ^ 32)

/-- sys.power. A CAP_W outside 2,000-12,000 is refused, but for 0, which reads only. -/
def execSysPower (n : Nat) (s : State) : Result :=
  .next (s.run n 0x0104 (fun c s =>
    let w := c.arg 0
    if w ≠ 0 ∧ (w < 2000 ∨ 12000 < w) then s.final n stBadParam 0 []
    else
      let s := if w = 0 then s else s.updPower (fun p => { p with liveCap := w })
      let (s, draw) := s.freeReading 3 0
      s.finalOk n [s.power.effCap, draw]))

/-- Kind of SCOPE that a telemetry item takes (Table 18-5). -/
def telemetryKind (item : Nat) : Option Nat :=
  if (1 ≤ item ∧ item ≤ 7) then some 0
  else if 0x10 ≤ item ∧ item ≤ 0x16 then some 3
  else if item = 0x20 then some 7
  else none

/-- RESULT0 of an item at instance `i`: the state where the block holds it, and a free reading otherwise.
Log entry 65: DESIGN CHOICE. -/
def State.telemetry (s : State) (item i : Nat) : State × Nat :=
  match item with
  | 0x01 => (s, s.power.inputMv % 2 ^ 32)
  | 0x04 => (s, s.power.effCap)
  | 0x05 => (s, s.power.flow)
  | 0x10 => (s, wrap 32 (Sparse.get 0 s.power.dieT i))
  | 0x11 => (s, s.power.rail i)
  | 0x12 => (s, s.power.rationOf i)
  | 0x15 => (s, (s.clock i).count % 2 ^ 32)
  | 0x16 => (s, b2n (s.clock i).lost)
  | 0x20 => (s, wrap 32 (Sparse.get 0 s.power.stackT i))
  | _ => s.freeReading item i

def execSysTelemetry (n : Nat) (s : State) : Result :=
  .next (s.run n 0x0105 (fun c s =>
    let item := c.arg 0
    match telemetryKind item with
    | none => s.final n stBadParam 0 []
    | some k =>
      if fld (c.arg 1) 12 4 ≠ k then s.final n stBadParam 16 []
      else match s.scopeOf (c.arg 1) with
        | .error st => s.final n st (scopeDetail st 16) []
        | .ok _ =>
          let i := fld (c.arg 1) 0 12
          let (s, r0) := s.telemetry item i
          if item = 0x15 then s.finalOk n [r0, (s.clock i).count / 2 ^ 32 % 2 ^ 16]
          else
            let (s, d) := s.draw
            s.finalOk n [r0, Config.age d % 2 ^ 32]))

end Sys2Proof.Machine
end

