-- ==== Sys2Proof/Machine/Curve.lean ====
section
/-! DEFINITION. ECDSA on brainpoolP384r1 (R390): the curve of RFC 5639, which R390 names, and verification of a signature
over a SHA-384 digest. Points are in Jacobian coordinates (X, Y, Z); Z = 0 is the point at infinity. -/

namespace Sys2Proof.Machine

def ecP : Nat :=
  0x8CB91E82A3386D280F5D6F7E50E641DF152F7109ED5456B412B1DA197FB71123ACD3A729901D1A71874700133107EC53
def ecA : Nat :=
  0x7BC382C63D8C150C3C72080ACE05AFA0C2BEA28E4FB22787139165EFBA91F90F8AA5814A503AD4EB04A8C7DD22CE2826
def ecB : Nat :=
  0x04A8C7DD22CE28268B39B55416F0447C2FB77DE107DCD2A62E880EA53EEB62D57CB4390295DBC9943AB78696FA504C11
def ecGx : Nat :=
  0x1D1C64F068CF45FFA2A63A81B7C13F6B8847A3E77EF14FE3DB7FCAFE0CBD10E8E826E03436D646AAEF87B2E247D4AF1E
def ecGy : Nat :=
  0x8ABE1D7520F9C2A45CB1EB8E95CFD55262B70B29FEEC5864E19C054FF99129280E4646217791811142820341263C5315
/-- Order of the base point. -/
def ecQ : Nat :=
  0x8CB91E82A3386D280F5D6F7E50E641DF152F7109ED5456B31F166E6CAC0425A7CF3AB6AF6B7FC3103B883202E9046565

structure EcPoint where
  x : Nat
  y : Nat
  z : Nat
deriving DecidableEq, Repr

def EcPoint.zero : EcPoint := ⟨1, 1, 0⟩

def mulP (a b : Nat) : Nat := a * b % ecP
def subP (a b : Nat) : Nat := (a + (ecP - b % ecP)) % ecP

/-- `b` to the power `e` modulo `m`, over the bits of `e` from bit `n - 1` down. -/
def powMod (m b e : Nat) : Nat → Nat → Nat
  | 0, a => a
  | n + 1, a =>
    let a := a * a % m
    powMod m b e n (if bit e n then a * b % m else a)

/-- The inverse modulo a prime below 2^384. -/
def invMod (m a : Nat) : Nat := powMod m (a % m) (m - 2) 384 1

def EcPoint.double (p : EcPoint) : EcPoint :=
  if p.z = 0 ∨ p.y = 0 then EcPoint.zero
  else
    let yy := mulP p.y p.y
    let s := 4 * mulP p.x yy % ecP
    let zz := mulP p.z p.z
    let m := (3 * mulP p.x p.x + mulP ecA (mulP zz zz)) % ecP
    let x := subP (mulP m m) (2 * s)
    ⟨x, subP (mulP m (subP s x)) (8 * mulP yy yy), 2 * mulP p.y p.z % ecP⟩

def EcPoint.add (p q : EcPoint) : EcPoint :=
  if p.z = 0 then q
  else if q.z = 0 then p
  else
    let pz := mulP p.z p.z
    let qz := mulP q.z q.z
    let u := mulP p.x qz
    let v := mulP q.x pz
    let a := mulP p.y (mulP qz q.z)
    let b := mulP q.y (mulP pz p.z)
    if u = v then (if a = b then p.double else EcPoint.zero)
    else
      let h := subP v u
      let r := subP b a
      let hh := mulP h h
      let hhh := mulP hh h
      let uh := mulP u hh
      let x := subP (subP (mulP r r) hhh) (2 * uh)
      ⟨x, subP (mulP r (subP uh x)) (mulP a hhh), mulP h (mulP p.z q.z)⟩

/-- `k` times a point, over the bits of `k` from bit `n - 1` down. -/
def EcPoint.times (p : EcPoint) (k : Nat) : Nat → EcPoint → EcPoint
  | 0, a => a
  | n + 1, a =>
    let a := a.double
    EcPoint.times p k n (if bit k n then a.add p else a)

/-- The affine x coordinate. -/
def EcPoint.affineX (p : EcPoint) : Nat :=
  let i := invMod ecP p.z
  mulP p.x (mulP i i)

/-- The coordinates name a point of the curve. -/
def onCurve (x y : Nat) : Bool :=
  decide (x < ecP) && decide (y < ecP) && (mulP y y == (mulP x (mulP x x) + mulP ecA x + ecB) % ecP)

/-- ECDSA verification: the digest as a number, the public key, and the signature. -/
def ecdsaOk (e kx ky r s : Nat) : Bool :=
  if r = 0 ∨ r ≥ ecQ ∨ s = 0 ∨ s ≥ ecQ ∨ !onCurve kx ky then false
  else
    let w := invMod ecQ s
    let g : EcPoint := ⟨ecGx, ecGy, 1⟩
    let k : EcPoint := ⟨kx, ky, 1⟩
    let x := (g.times (e % ecQ * w % ecQ) 384 EcPoint.zero).add (k.times (r * w % ecQ) 384 EcPoint.zero)
    x.z != 0 && x.affineX % ecQ == r

/-- An ECDSA signature r, s under private key `d` over the digest `e`, made with the number `k`: with the next one where r or s
would be 0. -/
def ecdsaTry (d e k : Nat) : Nat → Nat × Nat
  | 0 => (0, 0)
  | n + 1 =>
    let g : EcPoint := ⟨ecGx, ecGy, 1⟩
    let r := (g.times k 384 EcPoint.zero).affineX % ecQ
    let s := invMod ecQ k * ((e + r * d) % ecQ) % ecQ
    if r = 0 ∨ s = 0 then ecdsaTry d e (k % (ecQ - 1) + 1) n else (r, s)

/-- The signature of a message (R390): `nonce` is the signer's own choice. -/
def ecdsaSign (d : Nat) (msg : Bytes) (nonce : Nat) : Nat × Nat :=
  ecdsaTry d (natOfBytesBE (sha384 msg)) (nonce % (ecQ - 1) + 1) 4

/-- A 97-byte public key 0x04, X, Y: the coordinates. -/
def keyOf (b : Bytes) : Option (Nat × Nat) :=
  if b.length = 97 ∧ b.head? = some 0x04 then
    some (natOfBytesBE ((b.drop 1).take 48), natOfBytesBE (b.drop 49))
  else none

/-- The signature r and s over a message verifies under a public key. -/
def sigOk (msg key sig : Bytes) : Bool :=
  match keyOf key with
  | none => false
  | some (x, y) => ecdsaOk (natOfBytesBE (sha384 msg)) x y (natOfBytesBE (sig.take 48)) (natOfBytesBE ((sig.drop 48).take 48))

end Sys2Proof.Machine
end

