-- ==== Sys2Proof/Machine/Images.lean ====
section
/-! DEFINITION. What the Holdings flash holds, read and checked: directories (R386), Inventory copies (R338, R387), Curator
images (R391), settings blocks (R395) and the image checks of Table 16-6. -/

namespace Sys2Proof.Machine

/-! ### Bytes of a flash -/

/-- `n` bytes of a flash from row `i`. -/
def Flash.bytes (f : Flash) (i n : Nat) : Bytes := bytesOfNat n (natOfRows (f.read i (cdiv n 512)))

/-- The bytes of a row from `lo`, `n` of them. -/
def rowBytes (x lo n : Nat) : Bytes := bytesOfNat n (fld x (8 * lo) (8 * n))

/-! ### Directories -/

/-- A directory copy, when it is valid for this module: CURATOR_SLOT, INV_COPY and DIR_SEQ. -/
def parseDir (serial x : Nat) : Option (Nat × Nat × Nat) :=
  if crcOk64 x ∧ fld x 0 32 = 0x444C4F48 ∧ fld x 32 16 = 1 ∧ fld x 50 14 = 0 ∧ fld x 192 288 = 0 ∧ x < 2 ^ 512 ∧
      fld x 128 64 = serial then
    some (fld x 48 1, fld x 49 1, fld x 64 64)
  else none

def Flash.dir (f : Flash) (serial copy : Nat) : Option (Nat × Nat × Nat) := parseDir serial (f.row (offDir copy)).toNat

/-- The valid directory copy of a flash with the higher DIR_SEQ: the copy and its fields. -/
def Flash.bestDir (f : Flash) (serial : Nat) : Option (Nat × Nat × Nat × Nat) :=
  match f.dir serial 0, f.dir serial 1 with
  | some a, some b => if a.2.2 < b.2.2 then some (1, b) else some (0, a)
  | some a, none => some (0, a)
  | none, some b => some (1, b)
  | none, none => none

/-! ### Inventory copies -/

/-- A tile map entry of the Holdings copy. -/
def parseEnt (x : Nat) : TileEnt :=
  { logical := fld x 0 10, role := fld x 10 2, state := 0, widths := tabulate 4 (fun a => fld x (16 + 3 * a) 3),
    cause := fld x 28 4 }

def parseRecord (x : Nat) : Record :=
  { type := fld x 0 4, field := bit x 4, ptile := fld x 8 11, what := fld x 32 32, loc := fld x 64 32 }

/-- An Inventory as it is read from the flash: the Inventory, the active and the standby Curator tile. -/
structure InvCopy where
  inv     : Inventory
  active  : Nat
  standby : Nat
deriving DecidableEq, Repr

/-- An Inventory copy, when its header CRC matches and its RECORDS fits. -/
def Flash.inventory (f : Flash) (copy : Nat) : Option InvCopy :=
  let h := (f.row (offInv copy)).toNat
  let n := fld h 64 32
  if crcOkRow h ∧ n ≤ 16384 then
    let map := natOfRows (f.read (offInv copy + 1) 9)
    let recs := natOfRows (f.read (offInv copy + 10) (cdiv n 32))
    some
      { inv :=
          { tiles := (List.range numPhys).foldl (fun m p => Sparse.set TileEnt.reset m p (parseEnt (elem 32 map p))) [],
            records := tabulate n (fun i => parseRecord (elem 128 recs i)), unkept := [], unsaved := 0,
            failing := [] },
        active := fld h 128 11, standby := fld h 144 11 }
  else none

/-! ### Image checks (Table 16-6) -/

/-- What an image must agree with: the LENGTH of upd.verify, when it is that command that asks. -/
abbrev Asked := Option Nat

/-- upd.verify asked for another LENGTH. -/
def Asked.differs (a : Asked) (len : Nat) : Bool :=
  match a with
  | some n => n != len
  | none => false

/-- A Curator image that has passed, or the check that fails: status and number. -/
def State.checkCurator (s : State) (b : Bytes) (asked : Asked) : Except (Nat × Nat) Image :=
  let h := natOfBytes (b.take 512)
  let len := fld h 128 32
  let code := fld h 160 16
  let entry := fld h 176 16
  let prog := fld h 1768 16
  let key := rowBytes h 24 97
  let keyId := fld h 1736 32
  if !crcOkRow h then .error (stBadCrc, 1)
  else if fld h 0 32 ≠ 0x41525543 ∨ fld h 32 16 ≠ 1 ∨ fld h 48 16 ≠ 0 ∨ fld h 1784 2280 ≠ 0 ∨ fld h 96 32 > 64 ∨
      len < 1536 ∨ len > 8388608 ∨ code < 1 ∨ code > 16382 ∨ prog < 1 ∨ prog > 4096 ∨ prog > code ∨ entry ≥ 16 * prog then
    .error (stBadParam, 2)
  else if len ≠ 512 * (code + 2) ∨ len > slotBytes 0 ∨ asked.differs len then .error (stLength, 3)
  else
    let signed_ := b.take (len - 512)
    let (rx, ry) := s.fuses.root
    if !sigOk (key ++ bytesOfNat 4 keyId) ([0x04] ++ bytesBE 48 rx ++ bytesBE 48 ry) (rowBytes h 121 96) then
      .error (stSignature, 5)
    else if !sigOk signed_ key (b.drop (len - 512)) then .error (stSignature, 6)
    else if fld h 96 32 < s.fuses.security then .error (stStale, 7)
    else .ok { version := fld h 64 32, security := fld h 96 32, flash := 0, slot := 0, codeRows := code, progRows := prog,
               entry := entry, hash := sha384Num signed_ }

/-- An operator key is enrolled and it is not this one. -/
def State.keyRefused (s : State) (key : Bytes) : Bool :=
  match s.fuses.opKey with
  | some k => sha384Num key != k
  | none => false

/-- SB_SERIAL of the live block. -/
def State.liveSerial (s : State) : Nat :=
  match s.boot.block with
  | some k => k.serial
  | none => 0

/-- The entries of a settings block: key and value, or none where bytes 2-7 are not zero. -/
def blockEntries (b : Bytes) (n : Nat) : Option (List (Nat × Nat)) :=
  let l := (List.range n).map (fun i => natOfBytes ((b.drop (512 + 16 * i)).take 16))
  if l.all (fun x => fld x 16 48 == 0) then some (l.map (fun x => (fld x 0 16, fld x 64 64))) else none

/-- Keys strictly ascending. -/
def keysAscend : List (Nat × Nat) → Bool
  | [] => true
  | [_] => true
  | a :: b :: l => decide (a.1 < b.1) && keysAscend (b :: l)

/-- A settings block that has passed: its serial, its hash, its key and its entries. -/
structure BlockRead where
  serial  : Nat
  hash    : BitVec 384
  key     : Bytes
  entries : List (Nat × Nat)
deriving DecidableEq, Repr

/-- Rows of a settings block with `n` entries. -/
def settingsRows (n : Nat) : Nat := 2 + cdiv (16 * n) 512

/-- A settings block that has passed, or the check that fails. Check 7 is made for upd.verify only. -/
def State.checkBlock (s : State) (b : Bytes) (asked : Asked) : Except (Nat × Nat) BlockRead :=
  let h := natOfBytes (b.take 512)
  let n := fld h 64 32
  let len := fld h 96 32
  let serial := fld h 128 64
  let target := fld h 192 64
  let key := rowBytes h 32 97
  if !crcOkRow h then .error (stBadCrc, 1)
  else if fld h 0 32 ≠ 0x54455350 ∨ fld h 32 16 ≠ 1 ∨ fld h 48 16 ≠ 0 ∨ fld h 1032 3032 ≠ 0 ∨ n > 16384 ∨ serial = 0 then
    .error (stBadParam, 2)
  else if len ≠ 512 * settingsRows n ∨ len > slotBytes 1 ∨ asked.differs len then .error (stLength, 3)
  else match blockEntries b n with
    | none => .error (stBadParam, 4)
    | some es =>
      let signed_ := b.take (len - 512)
      if (target ≠ 0 ∧ target ≠ s.fuses.serial) ∨ !keysAscend es ∨ es.any (fun e => !keyKnown e.1 || !s.keyValueOk e.1 e.2) then
        .error (stBadParam, 4)
      else if s.keyRefused key then .error (stSignature, 5)
      else if !sigOk signed_ key (b.drop (len - 512)) then .error (stSignature, 6)
      else if asked.isSome ∧ serial ≤ s.liveSerial then .error (stStale, 7)
      else .ok { serial := serial, hash := sha384Num signed_, key := key, entries := es }

/-- The live values of a block. -/
def BlockRead.live (b : BlockRead) : Sparse Nat := b.entries.foldl (fun m e => liveSet m e.1 e.2) []

/-! ### Slots -/

/-- The Curator image in a slot of a flash. -/
def State.curatorSlot (s : State) (f slot : Nat) : Option Image :=
  let fl := s.flash f
  let len := min (fld (fl.row (offCurator slot)).toNat 128 32) (slotBytes 0)
  match s.checkCurator (fl.bytes (offCurator slot) (max len 512)) none with
  | .ok i => some { i with flash := f, slot := slot }
  | .error _ => none

/-- The settings block in a slot of a flash. -/
def State.settingsSlot (s : State) (f slot : Nat) : Option BlockRead :=
  let fl := s.flash f
  let len := min (fld (fl.row (offSettings slot)).toNat 96 32) (slotBytes 1)
  match s.checkBlock (fl.bytes (offSettings slot) (max len 512)) none with
  | .ok b => some b
  | .error _ => none

end Sys2Proof.Machine
end

