-- ==== Sys2Proof/Machine/Startup.lean ====
section
/-! DEFINITION. Start-up (R379-R389, R393, R397): election of a service strip, the Holdings read, die bring-up and the start of
Curator; and the strip's failure (R383). -/

namespace Sys2Proof.Machine

/-! ### Phase 1 (R382) -/

def State.elect (s : State) (d7 : Bool) : State :=
  let s := s.countIf d7 0x1D01 0
  { s with boot := { s.boot with strip := some d7, phase := 2 } }

/-- The verdict of D0, if it drives one, and D7's own self-test. A reference clock that was missing when phase 1 began fails
them (R379). -/
def execStripSelfTest (d0 : Option Bool) (d7 : Bool) (s : State) : Result :=
  .next (if s.boot.phase ≠ 1 then s
    else
      let d0 := d0.map (fun v => v && !s.boot.noRef0)
      let d7 := d7 && !s.boot.noRef7
      let s := { s with boot := { s.boot with d0 := d0, d7 := some d7 } }
      match d0 with
      | some true => s.elect false
      | some false => if d7 then s.elect true else s
      | none => s)

/-- No verdict of D0 within 3 ms. -/
def execD0VerdictTimeout (d7 : Bool) (s : State) : Result :=
  .next (if s.boot.phase ≠ 1 ∨ s.boot.d0.isSome then s
    else
      let d7 := d7 && !s.boot.noRef7
      let s := { s with boot := { s.boot with d7 := some d7 } }
      if d7 then s.elect true else s)

/-- The elected strip fails while in use: its contacts stop working, and Curator reports it over Arcade. -/
def execStripFailure (s : State) : Result :=
  .next (if s.boot.strip.isNone ∨ s.boot.stripFailed then s
    else ({ s with boot := { s.boot with stripFailed := true } } : State).tellStrip)

/-! ### Phase 2 (R387) -/

/-- The first candidate that is valid, and how many invalid ones were found before it. -/
def firstValid {α β : Type} (f : α → Option β) : List α → Nat × Option (α × β)
  | [] => (0, none)
  | a :: l =>
    match f a with
    | some b => (0, some (a, b))
    | none =>
      let (n, r) := firstValid f l
      (n + 1, r)

/-- Every (slot or copy, flash) in order: the first slot in each flash, then the second. -/
def State.candidates (s : State) (first : Nat) : List (Nat × Nat) :=
  [first, 1 - first].flatMap (fun c => s.fitted.map (fun f => (c, f)))

/-- Item 1: the directory: copy, CURATOR_SLOT, INV_COPY and DIR_SEQ. -/
def State.readDirs (s : State) : List Nat → State × Option (Nat × Nat × Nat × Nat)
  | [] => (s, none)
  | f :: fs =>
    let bad := ((List.range 2).filter (fun c => ((s.flash f).dir s.fuses.serial c).isNone)).length
    let s := s.countEach 0x1E01 0 bad
    match (s.flash f).bestDir s.fuses.serial with
    | some d => (s, some d)
    | none => State.readDirs s fs

/-- Item 4: the settings block of one slot. Log entry 68: DEDUCED. -/
def State.readSettings (s : State) (slot : Nat) : State × Option (Nat × BlockRead) :=
  let (n, r) := firstValid (fun f => s.settingsSlot f slot) s.fitted
  (s.countEach 0x1E01 0 n, r)

/-- The valid settings slot with the higher SB_SERIAL. -/
def betterBlock (a b : Option (Nat × BlockRead)) : Option (Nat × BlockRead) :=
  match a, b with
  | some x, some y => if x.2.serial < y.2.serial then some y else some x
  | some x, none => some x
  | none, y => y

/-- A physical tile number of an Inventory header, when it names one. -/
def tileNo (p : Nat) : Option Nat := if p < numPhys then some p else none

/-- Items 1 and 2: the directory in use, and the Inventory or the need to rebuild it. -/
def State.readInventory (s : State) : State :=
  let (s, d) := s.readDirs s.fitted
  match d with
  | none => { s with boot := { s.boot with dir := none, rebuild := true } }
  | some (copy, slot, inv, seq) =>
    let (n, r) := firstValid (fun (e : Nat × Nat) => (s.flash e.2).inventory e.1) (s.candidates inv)
    let s := s.countEach 0x1E01 0 n
    let s := { s with boot := { s.boot with dir := some (copy, seq), dirSlot := slot, invCopy := inv } }
    match r with
    | none => { s with boot := { s.boot with rebuild := true } }
    | some (e, v) =>
      { s with boot := { s.boot with invCopy := e.1, rebuild := false }, inv := v.inv,
               cur := { s.cur with active := tileNo v.active, standby := tileNo v.standby } }

/-- The operator key is enrolled, so a block may be live (R397, R398). -/
def State.enrolled (s : State) : Bool := s.fuses.opKey.isSome

/-- Phase 2. Without a valid Curator image the device enters recovery (R393). -/
def execHoldingsRead (s : State) : Result :=
  .next (if s.boot.phase ≠ 2 ∨ s.boot.stripFailed then s
    else
      let s := { s with boot := { s.boot with second := s.boot.second || s.boot.flash1.present } }
      let s := s.readInventory
      let (n, r) := firstValid (fun (e : Nat × Nat) => s.curatorSlot e.2 e.1)
        (s.candidates (if s.boot.dir.isSome then s.boot.dirSlot else 0))
      let s := s.countEach 0x1E01 0 n
      match r with
      | none => { s with boot := { s.boot with image := none, phase := 6 } }
      | some (_, i) =>
        let (s, a) := s.readSettings 0
        let (s, b) := s.readSettings 1
        let best := if s.enrolled then betterBlock a b else none
        let block := best.map (fun x =>
          ({ serial := x.2.serial, slot := if (match a with
              | some y => y.2.serial == x.2.serial
              | none => false) then 0 else 1, hash := x.2.hash } : Block))
        let values := match best with
          | some x => x.2.live
          | none => []
        { s with boot := { s.boot with image := some i, block := block, values := values, phase := 3 } })

/-! ### Phase 3 -/

/-- The bank and bank row of a record of a retired row. -/
def Record.bankRow (r : Record) : Nat × Nat :=
  if r.type = 2 then (r.what % 16, r.what / 16) else (16 + 4 * (r.what % 4) + r.what / 4 % 4, r.what / 16)

/-- A bank's remap table after one more record (R207). -/
def Bank.loadRemap (k : Bank) (b br loc : Nat) : Bank :=
  if loc < bankSpares b then { k with remap := Sparse.set 0 k.remap br (loc + 1), taken := loc :: k.taken }
  else { k with stuck := k.stuck ++ [br] }

/-- The remaps that the records of the Inventory name, in the order they were made. -/
def State.loadRecord (s : State) (r : Record) : State :=
  if (r.type = 2 ∨ r.type = 3) ∧ r.ptile < numPhys then
    let (b, br) := r.bankRow
    s.updTile r.ptile (fun t => t.setBank b ((t.bank b).loadRemap b br r.loc))
  else if r.type = 4 then
    let c := r.what % 256
    let ch := s.channel c
    if r.loc < 768 then
      s.setChannel c { ch with remap := Sparse.set 0 ch.remap (r.what / 256) (r.loc + 1), taken := max ch.taken (r.loc + 1) }
    else s
  else s

/-- The tests of every tile, in ascending physical index: each failing tile with its cause. -/
def State.testTiles (s : State) (res : BringUp) : State × List (Nat × Nat) :=
  (List.range numPhys).foldl (fun (acc : State × List (Nat × Nat)) p =>
    match res.tiles.find? (fun e => e.1 == p) with
    | none => acc
    | some e =>
      if (acc.1.ent p).role = roRetired then acc
      else
        let (s, _) := acc.1.applyTests p e.2
        match s.testCause p e.2 with
        | some c => (s, acc.2 ++ [(p, c)])
        | none => (s, acc.2)) (s, [])

/-- The role and state of the two Curator tiles in the tile map. -/
def State.markCurators (s : State) : State :=
  let mark (s : State) (p : Option Nat) (st : Nat) : State :=
    match p with
    | some p => s.setEnt p { (s.ent p) with logical := 0, role := roCurator, state := st, cause := 0 }
    | none => s
  mark (mark s s.cur.active 1) s.cur.standby 0

/-- The standby `q` takes its mirror of the journal, its 40 us begin, and the active Curator's 8 us (R305, R306). -/
def State.giveMirror (s : State) (q : Option Nat) : State :=
  let s := { s with cur := { s.cur with
    standby := q
    mirror := s.cur.cmds
    mirrorReplied := s.cur.replied } }
  match q with
  | some q => (s.startTimer .beat s.curDie).startTimer .seen (dieOf q)
  | none => s

/-- The spare of lowest physical index. -/
def State.lowestSpare (s : State) : Option Nat := findBelow (fun p => (s.ent p).role == roSpare) numPhys

/-- A missing active Curator tile is the standby, or the lowest spare; a missing standby is a spare under R351.
Log entry 68: DEDUCED. -/
def State.fillCurators (s : State) : State :=
  let s := match s.cur.active with
    | some _ => s
    | none =>
      match s.cur.standby with
      | some q => { s with cur := { s.cur with active := some q, standby := none } }
      | none => { s with cur := { s.cur with active := s.lowestSpare } }
  let s := s.markCurators
  match s.cur.active, s.cur.standby with
  | some p, none => (s.giveMirror (s.nearestSpare p)).markCurators
  | _, _ => s

/-- Tiles that failed: spares and Curator tiles are retired first, then presented tiles are replaced (R348). -/
def State.dropFailed (s : State) (bad : List (Nat × Nat)) : State :=
  let s := bad.foldl (fun s e =>
    let r := (s.ent e.1).role
    if r = roSpare then s.setEnt e.1 (retiredEnt e.2)
    else if r = roCurator then
      let gone (o : Option Nat) : Option Nat := if o = some e.1 then none else o
      { s.setEnt e.1 (retiredEnt e.2) with
        cur := { s.cur with active := gone s.cur.active, standby := gone s.cur.standby } }
    else s) s
  bad.foldl (fun s e =>
    if (s.ent e.1).role = roPresented then (s.replaceTile e.1 e.2 tsInService false).1 else s) s

/-- The tiles of a die that a rebuilt Inventory presents: the 32 passing tiles of lowest index; where there are fewer, the
failing tiles of lowest index stand for the numbers that spares will take (R389). Log entry 68: DEDUCED. -/
def rebuildDie (bad : List (Nat × Nat)) (d : Nat) : List Nat :=
  let l := tilesOfDie d
  let failed (p : Nat) : Bool := bad.any (fun e => e.1 == p)
  let good := (l.filter (fun p => !failed p)).take 32
  let places := (l.filter failed).take (32 - good.length)
  l.filter (fun p => good.contains p || places.contains p)

/-- The Inventory rebuilt (R389): numbers in ascending physical index, failing tiles replaced or retired, and the two
passing spares of lowest index as Curators. -/
def State.rebuildMap (s : State) (bad : List (Nat × Nat)) : State :=
  let marked := (List.range 32).flatMap (fun d => rebuildDie bad d)
  let order := (List.range numPhys).filter (fun p => marked.contains p)
  let s := order.zipIdx.foldl (fun s e =>
    s.setEnt e.1 { (s.ent e.1) with logical := e.2, role := roPresented, state := 0, cause := 0 }) s
  let s := (bad.filter (fun e => !marked.contains e.1)).foldl (fun s e => s.setEnt e.1 (retiredEnt e.2)) s
  let s := (bad.filter (fun e => marked.contains e.1)).foldl (fun s e => (s.replaceTile e.1 e.2 tsInService false).1) s
  let a := s.lowestSpare
  let s := ({ s with cur := { s.cur with active := a, standby := none } }).markCurators
  (s.giveMirror s.lowestSpare).markCurators

/-- Rows 0 onward of a Curator tile take the image's rows (R391). -/
def State.loadCurator (s : State) (i : Image) (p : Option Nat) : State :=
  match p with
  | none => s
  | some p =>
    let rows := (s.flash i.flash).read (offCurator i.slot + 1) i.codeRows
    s.updTile p (fun t => rows.zipIdx.foldl (fun t e => t.store e.2 e.1) t)

/-- A x8 PHY block of a port that failed is recorded once (R358); a spare block has no port and stays powered down (R18). -/
def State.recordPhy (s : State) (d : Nat) : State :=
  if !(List.range 5).any (fun x => (phyDies x).contains d) then s
  else if s.retired.any (fun r => r.type == 6 && r.what == d) then s else s.record 6 0 d 0

/-- The tests of phase 3 destroy what the rows of every tile held. Log entry 4: DESIGN CHOICE. -/
def State.clearTiles (s : State) : State :=
  { s with tiles := Sparse.mapVals Tile.reset s.tiles (fun t => { t with rows := [], fresh := [] }) }

/-- Phase 3. It ends with the image that the strip loads into the Curator tiles, so with a failed strip it does not end (R383,
R391). Log entry 72: DEDUCED. -/
def execDieBringUp (res : BringUp) (s : State) : Result :=
  .next (match s.boot.image with
    | none => s
    | some i =>
      if s.boot.phase ≠ 3 ∨ s.boot.stripFailed then s
      else
        let s := s.clearTiles.updPower (fun w => { w with rails := true, vcore := [], ration := [] })
        let s := if s.boot.rebuild then { s with inv := Inventory.reset } else s.inv.records.foldl State.loadRecord s
        let (s, bad) := s.testTiles res
        let s := if s.boot.rebuild then
            let s := res.badPhys.foldl State.recordPhy (s.rebuildMap bad)
            { s with inv := { s.inv with records := s.inv.records.map (fun r => { r with field := false }) } }
          else res.badPhys.foldl State.recordPhy (s.dropFailed bad).fillCurators
        let s := (s.loadCurator i s.cur.active).loadCurator i s.cur.standby
        match s.cur.active with
        | none => s
        | some _ => { s with boot := { s.boot with phase := 4 } })

/-! ### Phase 4 -/

/-- The items of the Holdings image that a valid copy of the other flash repairs (R387): where each lies and how many rows a
flash's copy of it has, when it is valid. -/
def State.holdItems (s : State) : List (Nat × (Nat → Option Nat)) :=
  (List.range 2).flatMap (fun c =>
    [(offDir c, fun f => ((s.flash f).dir s.fuses.serial c).map (fun _ => 1)),
     (offInv c, fun f => ((s.flash f).inventory c).map (fun v => 10 + cdiv v.inv.records.length 32)),
     (offCurator c, fun f => (s.curatorSlot f c).map (fun i => i.codeRows + 2)),
     (offSettings c, fun f => (s.settingsSlot f c).map (fun b => settingsRows b.entries.length))])

/-- Copies an item between the flashes where exactly one copy is valid; a repair that is made counts. -/
def State.repair (s : State) (e : Nat × (Nat → Option Nat)) : State :=
  let copy (src dst n : Nat) : State :=
    match s.editFlash dst e.1 n (fun f => f.write e.1 ((s.flash src).read e.1 n)) false with
    | (s, true) => s.count1 0x1E02 0
    | (s, false) => s
  match e.2 0, e.2 1 with
  | some n, none => copy 0 1 n
  | none, some n => copy 1 0 n
  | _, _ => s

/-- Log entry 68: DEDUCED. -/
def State.repairAll (s : State) : State :=
  if s.fitted = [0, 1] ∧ !s.boot.stripFailed then s.holdItems.foldl State.repair s else s

/-- Curator's writes of phase 4: repairs, a rebuilt Inventory, and the directory when Curator started from the other slot
(R387, R389, R393). -/
def State.phase4Writes (s : State) (i : Image) : State :=
  let s := s.repairAll
  if s.boot.rebuild then
    let s := { s with boot := { s.boot with invCopy := 1, dirSlot := i.slot } }
    (s.saveInventory false false).1
  else if s.boot.dirSlot ≠ i.slot then (s.writeDir i.slot s.boot.invCopy false false).1
  else s

/-- The certificate store as rows: the header of R400, then each certificate from the start of a row. -/
def certRows (certs : List Bytes) : List Row :=
  let rows (c : Bytes) : Nat := cdiv c.length 512
  let starts := certs.foldl (fun (acc : List Nat × Nat) c => (acc.1 ++ [acc.2], acc.2 + rows c)) (([] : List Nat), 1)
  let header := pack ((0, 16, certs.length) :: (certs.zipIdx.flatMap (fun e =>
    [(8 * (4 + 4 * e.2), 16, starts.1.getD e.2 0), (8 * (6 + 4 * e.2), 16, e.1.length)])))
  row header :: certs.flatMap (fun c => rowsOfNat (rows c) (natOfBytes c))

/-- The flash region that mirrors the certificate store is rewritten where it differs (R400). Log entry 69: DEDUCED. -/
def State.mirrorCerts (s : State) : State :=
  let rows := certRows s.fuses.certs
  s.fitted.foldl (fun s f =>
    if (s.flash f).read offCerts rows.length = rows then s
    else (s.editFlash f offCerts rows.length (fun x => x.write offCerts rows) false).1) s

/-- The port as training leaves it (R309, R333, R357). -/
def State.trainPort (s : State) (lanes : List (Nat × Bool)) (p : Nat) : State :=
  let gone (lane : Nat) : Bool := s.retired.any (fun r => r.type == 5 && r.what == p + 8 * lane)
  s.setPort p
    { CwyPort.reset with
      workUp := lanes.contains (p, false) && !gone 0, spareUp := lanes.contains (p, true) && !gone 1, workGone := gone 0,
      spareGone := gone 1, onSpare := gone 0, quarantine := bit (s.live keyQuarantine) p }

/-- Inserts by ascending identifier. -/
def insertById (e : Nat × Nat × Nat) : List (Nat × Nat × Nat) → List (Nat × Nat × Nat)
  | [] => [e]
  | f :: l => if e.2.1 < f.2.1 then e :: f :: l else f :: insertById e l

/-- The expanders that trained behind the ports, contiguous from row 0 in ascending identifier (R359).
Log entry 64: DEDUCED. -/
def State.placeExpanders (s : State) (l : List (Nat × Nat × Nat)) : List Expander :=
  (List.range 4).flatMap (fun x =>
    if s.phyFailed (x + 1) then []
    else
      let mine := (l.filter (fun e => e.1 == x && e.2.2 != 0)).foldr insertById []
      (mine.foldl (fun (acc : List Expander × Nat) e =>
        if acc.2 + e.2.2 ≤ 2 ^ 33 then
          (acc.1 ++ [{ port := x, id := e.2.1, base := acc.2, rows := e.2.2 }], acc.2 + e.2.2)
        else acc) ([], 0)).1)

/-- Counts held through phases 1 to 3 are added (R425). Log entry 76: DEDUCED. -/
def State.releaseHeld (s : State) : State :=
  let held := s.boot.held
  held.foldl (fun s e => s.count e.1 e.2.1 e.2.2) { s with boot := { s.boot with held := [] } }

def execCuratorStart (up : TrainResult) (s : State) : Result :=
  .next (match s.boot.image with
    | none => s
    | some i =>
      if s.boot.phase ≠ 4 then s
      else
        let s := (s.setLive s.boot.values 1).releaseHeld
        let s := (List.range 8).foldl (fun s p => s.trainPort up.lanes p) s
        let s := { s with
          arc := { s.arc with linkUp := up.arcade && !s.phyFailed 0 },
          mem := { s.mem with expanders := s.placeExpanders up.expanders } }
        let s := (s.phase4Writes i).mirrorCerts
        let s := ({ s with boot := { s.boot with phase := 5 }, cur := { s.cur with ready := true } }).giveMirror s.cur.standby
        ((List.range 8).foldl State.moveIfDown s).tellStrip)

end Sys2Proof.Machine
end

