-- ==== Sys2Proof/Machine/Time.lean ====
section
/-! DEFINITION. Time as an event: the passing of a deadline (R270), the bite of a watchdog (R278-R280), and the tick that
passes on an empty queue (R277). -/

namespace Sys2Proof.Machine

/-- One nanosecond on every die's own counter (R277), what it brings about, and one trace record emitted.
Log entry 7: DESIGN CHOICE. -/
def State.tick (s : State) : State := ((List.range 32).foldl (fun (s : State) d => s.pass d 1) s).settleArbs.emitTrace

/-- The deadline of pending request `i` passes (R270): the die's interval counter has come that far, and the request is
overdue, with the preemption this brings (R275) and what else falls due by then (R277). Log entry 47: DESIGN CHOICE. -/
def execDeadlinePassed (r : ResId) (i : Nat) (s : State) : Result :=
  .next (match (s.arb r).pending[i]? with
    | none => s
    | some q =>
      let d := s.resDie r
      s.passTime d (untilDeadline (s.clock d).count q.deadline))

/-- The watchdog of an arbiter bites: the die's interval counter has come to its limit (R277-R279), with what else falls due by
then. Nothing bites where no watchdog runs. `silent`: the holder's tile does not answer any more (R349).
Log entry 47: DESIGN CHOICE. -/
def execWatchdogBite (r : ResId) (silent : Bool) (s : State) : Result :=
  .next (
    let a := s.arb r
    match a.owner, a.since with
    | some _, some w =>
      let d := s.resDie r
      let s := (s.pass d (untilReading (s.clock d).count (s.biteAt r w))).lapse r
      (match s.biteDue r with
      | none => s
      | some src =>
        match silent, Config.sourceTile src with
        | true, some p => (s.bite r src).unreachable p
        | _, _ => s.watchdog r src).settleArbs
    | _, _ => s)

end Sys2Proof.Machine
end

