-- ==== Sys2Proof/Machine/Updates.lean ====
section
/-! DEFINITION. Curator's failover (R306, R307, R351), the update of Curator and of the settings block (R308, R394, R397,
R398), and attestation (R400, R401). -/

namespace Sys2Proof.Machine

/-! ### Failover (R306, R307) -/

/-- A tile that served as Curator is retired with cause 5. Log entry 70: DEDUCED. -/
def State.retireCurator (s : State) (p : Nat) : State :=
  ((s.setEnt p (retiredEnt 5)).toResidue p).updTile p (fun t => { Tile.reset with banks := t.banks })

/-- A started command that the new Curator does not carry over: every one but a launch some of whose tiles still run. -/
def Cmd.cutShort (c : Cmd) : Bool :=
  c.st == .started && (match c.wait with
    | .launch left _ => left.isEmpty
    | _ => true)

/-- The commands that only read, by opcode: sys.*, cfg.read, win.read, stream.qread, rng.read, ctr.read, ctr.snapshot, inv.read,
upd.status, attest.*, link.status, link.digest and cast.status (R307). -/
def Cmd.readOnly (c : Cmd) : Bool :=
  let op := hOpcode c.hdr
  op / 256 == 1 || op / 256 == 12 ||
    [0x0200, 0x0403, 0x0500, 0x0700, 0x0800, 0x0801, 0x0900, 0x0A02, 0x0B03, 0x0D00, 0x0D03].contains op

/-- One started command settled on takeover: a launch that has ended meanwhile draws its final reply, a command that only reads is
executed again from the start, and any other is CANCELLED with DETAIL 0x0100. -/
def State.settleCmd (s : State) (c : Cmd) : State :=
  match c.wait with
  | .launch _ ends => s.finishLaunch c.n ends
  | _ =>
    if c.readOnly then s.updCmd c.n (fun c =>
      { c with
        st := .queued
        wait := .none })
    else s.final c.n stCancelled 0x0100 []

/-- The journal settled on takeover. Log entry 70: DEDUCED. -/
def State.settleJournal (s : State) : State := (s.cur.cmds.filter Cmd.cutShort).foldl State.settleCmd s

/-- The standby begins a takeover: no Curator runs until it is complete. Log entry 70: DEDUCED. -/
def State.beginTakeover (s : State) : State :=
  ({ s with cur := { s.cur with ready := false, handover := true } }).count1 0x1701 0

/-- The standby `q` becomes active with the mirrored journal, and the failed tile `p` is retired. A service strip lost meanwhile
is reported now (R383). Log entry 70: DEDUCED. -/
def State.endTakeover (s : State) (p q : Nat) : State :=
  let gen := (s.win p 15).gen
  let s := s.retireCurator p
  let cur := s.cur
  let s := { s with cur := { cur with
    ready := true
    handover := false
    active := some q
    standby := none
    cmds := cur.mirror
    replied := cur.mirrorReplied
    mirror := []
    mirrorReplied := [] } }
  let s := s.stopTimers (fun t => t == Timer.beat || t == Timer.seen)
  (s.markCurators.moveCastWindow gen).settleJournal.tellStrip

/-- The standby has seen no heartbeat for 40 us of its own die. The event comes twice: the takeover begins, then it is complete. With no standby
the device is left with no Curator. Log entry 70: DEDUCED. -/
def execStandbyTakeover (s : State) : Result :=
  .next (match s.cur.active, s.cur.standby with
    | none, _ => s
    | some _, none => if s.cur.ready then { s with cur := { s.cur with ready := false, active := none, handover := false } } else s
    | some p, some q =>
      if s.cur.ready then (s.expire .seen 40000).beginTakeover
      else if s.cur.handover then s.endTakeover p q
      else s)

/-- A new standby: the spare nearest to the active tile, unless a presented tile waits for one (R351).
Its counts go to the residue (R424). The image is read from the flash, which a failed strip cannot (R383).
Log entry 71: DESIGN CHOICE. -/
def State.newStandby (s : State) (p : Nat) : State :=
  if s.inv.failing ≠ [] ∨ s.boot.stripFailed then s
  else match s.nearestSpare p, s.boot.image with
    | some q, some i =>
      let s := (s.toResidue q).updTile q (fun t => { Tile.reset with banks := t.banks })
      ((s.giveMirror (some q)).markCurators).loadCurator i (some q)
    | _, _ => s

/-- The heartbeat row that the active Curator writes into the standby `q`. Its row, outside the image, and its contents
are not stated. Log entry 71: DESIGN CHOICE. -/
def State.beat (s : State) (q : Nat) : State :=
  let code := s.boot.image.elim 0 (·.codeRows)
  let r := code + Config.heartbeatRow % (0x6000 - code)
  let d := s.free
  let s := { s with free := d + 1, cur := { s.cur with beats := s.cur.beats + 1 } }
  setRow ((s.startTimer .beat s.curDie).startTimer .seen (dieOf q)) q r (row (Config.padding d 1))

/-- The heartbeat of the active Curator, 8 us after its last. With no standby, Curator makes a spare the new one instead.
Log entry 71: DESIGN CHOICE. -/
def execCuratorHeartbeat (s : State) : Result :=
  .next (match s.cur.active with
    | none => s
    | some p =>
      if !s.cur.ready then s
      else match s.cur.standby with
        | some q => (s.expire .beat 8000).beat q
        | none => s.newStandby p)

/-! ### Staging (R394) -/

def Boot.staged (b : Boot) (image : Nat) : Nat := if image = 0 then b.staged0 else b.staged1
def Boot.verified (b : Boot) (image : Nat) : Option Nat := if image = 0 then b.verified0 else b.verified1

def State.setStaged (s : State) (image n : Nat) : State :=
  { s with boot := if image = 0 then { s.boot with staged0 := n } else { s.boot with staged1 := n } }

def State.setVerified (s : State) (image : Nat) (v : Option Nat) : State :=
  { s with boot := if image = 0 then { s.boot with verified0 := v } else { s.boot with verified1 := v } }

/-- Bytes written into a flash from byte `off` of the region that starts at row `i`. -/
def Flash.patch (f : Flash) (i off : Nat) (b : Bytes) : Flash :=
  let first := off / 512
  let n := cdiv (off + b.length) 512 - first
  let old := natOfRows (f.read (i + first) n)
  f.write (i + first) (rowsOfNat n (setFld old (8 * (off % 512)) (8 * b.length) (natOfBytes b)))

/-- upd.stage. `fail1` and `fail2`: the first and the second flash report a persistent failure (R388).
Log entry 72: DEDUCED. -/
def execUpdStage (n : Nat) (fail1 fail2 : Bool) (s : State) : Result :=
  .next (s.run n 0x0B00 (fun c s =>
    let im := c.arg 0
    let off := c.arg 1
    let last := off + c.payload.length
    if last > slotBytes im then s.refuse n stLength
    else
      let s := s.setVerified im none
      let s := if off = 0 then s.setStaged im 0 else s
      let (s, ok) := s.holdEdit (offStage im + off / 512) (cdiv last 512 - off / 512)
        (fun f => f.patch (offStage im) off c.payload) fail1 fail2
      if ok then (s.setStaged im (max (s.boot.staged im) last)).finalOk n [] else s.refuse n stNoResource))

/-- The flash that is read first: the first one that is used. -/
def State.firstFlash (s : State) : Nat := s.fitted.headD 0

/-- The first `len` staged bytes, and never less than a header row. -/
def State.stagedBytes (s : State) (image len : Nat) : Bytes := (s.flash s.firstFlash).bytes (offStage image) (max len 512)

/-- The check that the staged image fails: status and number. -/
def State.stageFault (s : State) (image len : Nat) : Option (Nat × Nat) :=
  if image = 0 then
    match s.checkCurator (s.stagedBytes 0 len) (some len) with
    | .ok _ => none
    | .error e => some e
  else
    match s.checkBlock (s.stagedBytes 1 len) (some len) with
    | .ok _ => none
    | .error e => some e

/-- Copies `len` staged bytes of an image to a slot that starts at row `i`. -/
def State.installStaged (s : State) (image len i : Nat) (fail1 fail2 : Bool) : State × Bool :=
  s.holdWrite i ((s.flash s.firstFlash).read (offStage image) (cdiv len 512)) fail1 fail2

/-- In recovery a verified Curator image is copied to slot A and the directory names slot A (R393). A write that fails ends
the command that caused it with NO_RESOURCE (R388). -/
def State.installRecovered (s : State) (n len : Nat) : State :=
  match s.installStaged 0 len (offCurator 0) false false with
  | (s, false) => s.refuse n stNoResource
  | (s, true) =>
    match s.writeDir 0 s.boot.invCopy false false with
    | (s, false) => s.refuse n stNoResource
    | (s, true) => s.finalOk n []

/-- Log entry 72: DEDUCED. -/
def execUpdVerify (n : Nat) (s : State) : Result :=
  .next (s.run n 0x0B01 (fun c s =>
    let im := c.arg 0
    let len := c.arg 1
    if s.boot.stripFailed then s.refuse n stNoResource
    else if len > s.boot.staged im then s.final n stLength 3 []
    else match s.stageFault im len with
      | some (st, k) => s.final n st k []
      | none =>
        let s := s.setVerified im (some len)
        if s.boot.phase = 6 then s.installRecovered n len else s.finalOk n []))

def execUpdStatus (n : Nat) (s : State) : Result :=
  .next (s.run n 0x0B03 (fun c s =>
    s.finalOk n [s.boot.staged (c.arg 0), b2n (s.boot.verified (c.arg 0)).isSome]))

/-! ### Activation (R308, R394, R397, R398) -/

/-- Commands other than `n` and launches are started and run to their final replies (R308). Log entry 73: DEDUCED. -/
def State.draining (s : State) (n : Nat) : Bool := s.cur.cmds.any (fun c => c.n != n && c.cutShort)

/-- Steps 4 to 6 of the handover: the standby becomes active with the new image, the former active loads it and becomes
standby, and the directory names its slot. Log entry 73: DEDUCED. -/
def State.finishHandover (s : State) (n : Nat) (i : Image) (fail1 fail2 : Bool) : State :=
  let cur := s.cur
  let (s, gen) := match cur.active with
    | some p => (s.closeWindow p 15, (s.win p 15).gen)
    | none => (s, 0)
  let s := { s with
    cur := { s.cur with active := cur.standby, standby := cur.active, handover := false },
    boot := { s.boot with image := some i } }
  let s := ((s.markCurators.loadCurator i s.cur.active).loadCurator i s.cur.standby).moveCastWindow gen
  let s := (s.giveMirror s.cur.standby).count1 0x1702 0
  let (s, ok) := s.writeDir i.slot s.boot.invCopy fail1 fail2
  if ok then
    ({ s with fuses := { s.fuses with security := max s.fuses.security i.security } }).finalOk n [i.version]
  else s.refuse n stNoResource

/-- The handover goes on once no started command is left to wait for. A strip that has failed meanwhile reads no flash, and ends
it (R383). Log entry 73: DEDUCED. -/
def State.stepHandover (s : State) (n : Nat) (fail1 fail2 : Bool) : State :=
  if s.draining n then s
  else if s.boot.stripFailed then ({ s with cur := { s.cur with handover := false } }).refuse n stNoResource
  else match s.curatorSlot s.firstFlash (1 - s.boot.dirSlot) with
    | some i => s.finishHandover n i fail1 fail2
    | none => ({ s with cur := { s.cur with handover := false } }).refuse n stSignature

/-- upd.activate with IMAGE 0: the staged image is copied into the slot the directory does not name and verified again;
then HANDOVER is set. -/
def State.activateCurator (s : State) (n len : Nat) (fail1 fail2 : Bool) : State :=
  if s.cur.standby.isNone then s.refuse n stNoResource
  else match s.stageFault 0 len with
    | some (_, k) => s.final n stSignature k []
    | none =>
      match s.installStaged 0 len (offCurator (1 - s.boot.dirSlot)) fail1 fail2 with
      | (s, false) => s.refuse n stNoResource
      | (s, true) =>
        (({ s with cur := { s.cur with handover := true } }).await n .handover).stepHandover n fail1 fail2

/-- The slot that does not hold the live settings block. Log entry 74: DEDUCED. -/
def State.freeSettingsSlot (s : State) : Nat :=
  match s.boot.block with
  | some k => 1 - k.slot
  | none => 0

/-- upd.activate with IMAGE 1: the block is written, its key is enrolled when none is, and its values become live as a new
configuration generation. -/
def State.activateBlock (s : State) (n len : Nat) (fail1 fail2 : Bool) : State :=
  if s.anyLaunch then s.refuse n stConflict
  else match s.checkBlock (s.stagedBytes 1 len) none with
    | .error (_, k) => s.final n stSignature k []
    | .ok b =>
      let slot := s.freeSettingsSlot
      match s.installStaged 1 len (offSettings slot) fail1 fail2 with
      | (s, false) => s.refuse n stNoResource
      | (s, true) =>
        let key := match s.fuses.opKey with
          | some k => k
          | none => sha384Num b.key
        let s := { s with
          fuses := { s.fuses with opKey := some key },
          boot := { s.boot with
            block := some { serial := b.serial, slot := slot, hash := b.hash }
            values := b.live } }
        let s := s.newGeneration b.live
        s.finalOk n s.genResult

/-- upd.activate. While its handover waits for started commands, the next such event goes on with it.
Log entry 72: DEDUCED. -/
def execUpdActivate (n : Nat) (fail1 fail2 : Bool) (s : State) : Result :=
  .next (match s.cmd n with
    | none => s
    | some c =>
      if c.wait = .handover then s.stepHandover n fail1 fail2
      else s.run n 0x0B02 (fun c s =>
        let im := c.arg 0
        if s.boot.stripFailed then s.refuse n stNoResource
        else match s.boot.verified im with
          | none => s.refuse n stSignature
          | some len =>
            if im = 0 then s.activateCurator n len fail1 fail2 else s.activateBlock n len fail1 fail2))

/-! ### Attestation (R400, R401) -/

/-- Bytes 0-415 of the report (Table 16-9). -/
def State.reportBits (s : State) (nonce : Nat) : Nat :=
  let im := s.boot.image
  let of (f : Image → Nat) : Nat := match im with
    | some i => f i
    | none => 0
  let bl (f : Block → Nat) : Nat := match s.boot.block with
    | some k => f k
    | none => 0
  pack [(0, 16, 1), (16, 8, 0xB0), (24, 1, b2n s.fuses.debug), (25, 1, b2n s.enrolled),
    (26, 1, b2n (s.boot.strip == some true)), (27, 1, of Image.flash), (28, 1, of Image.slot), (29, 1, bl Block.slot),
    (30, 1, b2n s.boot.block.isSome), (31, 1, b2n (s.boot.phase == 6)), (32, 32, s.curatorVersion),
    (64, 32, of Image.security), (96, 32, s.fuses.security), (128, 64, s.fuses.serial), (192, 64, bl Block.serial),
    (256, 32, s.set.gen), (288, 14, s.house), (304, 16, s.presented), (320, 16, s.spares), (384, 256, nonce),
    (640, 384, s.set.digest.toNat), (1024, 384, of (fun i => i.hash.toNat)), (1408, 384, bl (fun k => k.hash.toNat)),
    (1792, 384, match s.fuses.opKey with
      | some k => k.toNat
      | none => 0)]

/-- The report row, signed with the identity key over its bytes 0-415; the nonce of the signature is free.
Log entry 3: DESIGN CHOICE. -/
def State.report (s : State) (nonce : Nat) : State × Row :=
  let (s, d) := s.draw
  let x := s.reportBits nonce
  let (r, t) := ecdsaSign s.fuses.idKey (bytesOfNat 416 x) (Config.nonce d)
  (s, row (x + put 3328 768 (natOfBytes (bytesBE 48 r ++ bytesBE 48 t))))

/-- Log entry 72: DEDUCED. -/
def execAttestReport (n : Nat) (s : State) : Result :=
  .next (s.run n 0x0C00 (fun c s =>
    if s.boot.stripFailed then s.refuse n stNoResource
    else
      let (s, x) := s.report (c.arg 0)
      s.answerRows c (c.arg 1) [x] []))

def execAttestCerts (n : Nat) (s : State) : Result :=
  .next (s.run n 0x0C01 (fun c s =>
    if s.boot.stripFailed then s.refuse n stNoResource
    else s.answerRows c (c.arg 0) (certRows s.fuses.certs) []))

end Sys2Proof.Machine
end

