-- ==== Sys2Proof/Machine/Vector.lean ====
section
/-! DEFINITION. The vector engine (R180-R185, R437, R438): 32 registers of one row each. A register holds elements of
TYPE 0 FP32, 1 FX64 or 2 BF16; register numbers and types are the fields of Table 08-9. -/

namespace Sys2Proof.Machine

def Tile.vreg (t : Tile) (v : Nat) : Nat := (Sparse.get 0 t.vregs v).toNat
def State.setVreg (s : State) (p v x : Nat) : State :=
  s.updTile p (fun t => { t with vregs := Sparse.set 0 t.vregs v (row x) })

/-- Fields of Table 08-9. -/
def Op.vtype (o : Op) : Nat := o.f 16 2
def Op.vd (o : Op) : Nat := o.f 18 5
def Op.va (o : Op) : Nat := o.f 23 5
def Op.vb (o : Op) : Nat := o.f 28 5

/-- Bits of an element of a TYPE, the elements of a register, and the format code of a floating TYPE. -/
def typeBits (type : Nat) : Nat := 8 * typeBytes type
def typeElems (type : Nat) : Nat := 512 / typeBytes type
def typeFmt (type : Nat) : Nat := if type = 2 then 6 else 9

def elems (type x : Nat) : List Nat := tabulate (typeElems type) (fun i => elem (typeBits type) x i)

/-- A value rounded to a floating TYPE: once to FP32, and for BF16 once more (R182). -/
def typeRound (type : Nat) (v : Val) : Nat := if type = 2 then toBf16 (f32Val (toF32 v)) else toF32 v

def typeVal (type x : Nat) : Val := floatVal (typeFmt type) x

/-! ### Element functions -/

def vAdd (type a b : Nat) : Nat :=
  if type = 1 then (a + b) % 2 ^ 64 else typeRound type (Val.add (typeVal type a) (typeVal type b))
def vSub (type a b : Nat) : Nat :=
  if type = 1 then (a + 2 ^ 64 - b) % 2 ^ 64 else typeRound type (Val.add (typeVal type a) (typeVal type b).neg)
def vMul (type a b : Nat) : Nat := typeRound type (Val.mul (typeVal type a) (typeVal type b))
def vFma (type a b d : Nat) : Nat :=
  typeRound type (Val.add (Val.mul (typeVal type a) (typeVal type b)) (typeVal type d))
def vMax (type a b : Nat) : Nat :=
  if type = 1 then (if signed 64 a ≥ signed 64 b then a else b) else floatMax (typeFmt type) a b
def vMin (type a b : Nat) : Nat :=
  if type = 1 then (if signed 64 a ≤ signed 64 b then a else b) else floatMin (typeFmt type) a b
def vCmp (cond type a b : Nat) : Nat :=
  let c : Option Int := if type = 1 then some (signed 64 a - signed 64 b) else Val.cmp (typeVal type a) (typeVal type b)
  if condHolds cond c then 2 ^ typeBits type - 1 else 0
def vSel (a b m : Nat) : Nat := if m ≠ 0 then a else b

/-- e^x, 1/x, 1/sqrt(x): the FP32 result, rounded to BF16 for BF16 (R182). -/
def vFun (f : Val → Nat) (type a : Nat) : Nat :=
  let r := f (typeVal type a)
  if type = 2 then toBf16 (f32Val r) else r

/-- The sum of a register in the pairwise order; a BF16 sum is kept in FP32 and rounded once (R183). -/
def vSum (type : Nat) (l : List Nat) : Nat :=
  if type = 1 then (pairReduce (vAdd 1) 9 l).headD 0
  else
    let s := (pairReduce (vAdd 0) 9 (l.map (fun x => toF32 (typeVal type x)))).headD 0
    if type = 2 then toBf16 (f32Val s) else s

def vMaxAll (type : Nat) (l : List Nat) : Nat := (pairReduce (vMax type) 9 l).headD 0

/-! ### Operations on registers -/

/-- vd <- f of the elements of va and vb. -/
def opVec2 (f : Nat → Nat → Nat → Nat) (p : Nat) (o : Op) (s : State) : Outcome :=
  let t := s.tile p
  okOut (s.setVreg p o.vd (packElems (typeBits o.vtype)
    (List.zipWith (f o.vtype) (elems o.vtype (t.vreg o.va)) (elems o.vtype (t.vreg o.vb)))))

/-- vd <- f of the elements of va. -/
def opVec1 (f : Nat → Nat → Nat) (p : Nat) (o : Op) (s : State) : Outcome :=
  okOut (s.setVreg p o.vd (packElems (typeBits o.vtype) ((elems o.vtype ((s.tile p).vreg o.va)).map (f o.vtype))))

/-- Element 0 of vd <- f of all the elements of va; the others are 0. -/
def opVecAll (f : Nat → List Nat → Nat) (p : Nat) (o : Op) (s : State) : Outcome :=
  okOut (s.setVreg p o.vd (f o.vtype (elems o.vtype ((s.tile p).vreg o.va))))

def opVecLd (p : Nat) (o : Op) (s : State) : Outcome :=
  match o.ix 33 16 with
  | none => failOut s stBadParam 0
  | some r =>
    if !rowExists r then failOut s stBadParam 0
    else let (s, x) := readRow s p r; okOut (s.setVreg p o.vd x.toNat)

def opVecSt (p : Nat) (o : Op) (s : State) : Outcome :=
  match o.ix 33 16 with
  | none => failOut s stBadParam 0
  | some r => if !rowExists r then failOut s stBadParam 0 else okOut (writeRow s p r (row ((s.tile p).vreg o.va)))

def opVecFma (p : Nat) (o : Op) (s : State) : Outcome :=
  let t := s.tile p
  let ab := (elems o.vtype (t.vreg o.va)).zip (elems o.vtype (t.vreg o.vb))
  okOut (s.setVreg p o.vd (packElems (typeBits o.vtype)
    (List.zipWith (fun e d => vFma o.vtype e.1 e.2 d) ab (elems o.vtype (t.vreg o.vd)))))

def opVecCmp (p : Nat) (o : Op) (s : State) : Outcome := opVec2 (vCmp (o.f 33 3)) p o s

def opVecSel (p : Nat) (o : Op) (s : State) : Outcome :=
  let t := s.tile p
  let ab := (elems o.vtype (t.vreg o.va)).zip (elems o.vtype (t.vreg o.vb))
  okOut (s.setVreg p o.vd (packElems (typeBits o.vtype)
    (List.zipWith (fun e m => vSel e.1 e.2 m) ab (elems o.vtype (t.vreg (o.f 33 5))))))

/-- vec.bcast: an EL beyond the register's elements is out of range. Log entry 20: DESIGN CHOICE. -/
def opVecBcast (p : Nat) (o : Op) (s : State) : Outcome :=
  let n := typeElems o.vtype
  if o.f 33 8 ≥ n then failOut s stBadParam 0
  else okOut (s.setVreg p o.vd (packElems (typeBits o.vtype)
    (List.replicate n (elem (typeBits o.vtype) ((s.tile p).vreg o.va) (o.f 33 8)))))

/-- -infinity of a floating TYPE. -/
def negInf (type : Nat) : Nat := infPattern (typeFmt type) + signBit (typeFmt type) true

/-- vec.cmask (R184): query x(XQ) + e div 32, key x(XK) + e mod 32. -/
def opVecCmask (p : Nat) (o : Op) (s : State) : Outcome :=
  let xq := s.x p o.list (o.f 33 4)
  let xk := s.x p o.list (o.f 37 4)
  okOut (s.setVreg p o.vd (packElems (typeBits o.vtype) ((elems o.vtype ((s.tile p).vreg o.vd)).zipIdx.map (fun e =>
    if xk + e.2 % 32 > xq + e.2 / 32 then negInf o.vtype else e.1))))

/-- vec.cvt (R76, R438). -/
def opVecCvt (p : Nat) (o : Op) (s : State) : Outcome :=
  let type := o.vtype
  let fmt := o.f 33 4
  let round := o.f 37 2
  let anchor := signed 16 (o.f 39 16)
  let anchorOut := signed 16 (o.f 55 16)
  let part := o.f 139 3
  let ei := typeBytes type
  let eo := fmtBytes fmt
  let t := s.tile p
  let src := elems type (t.vreg o.va)
  let first := if eo > ei then part * (512 / eo) else 0
  let used := (src.zipIdx.drop first).take (if eo > ei then 512 / eo else 512 / ei)
  let (s, bits) :=
    if fmt = 10 then
      let r := used.map (fun e => realign e.1 anchor anchorOut)
      (s.countIf (r.any (fun e => e.2)) 0x0201 p, r.map (fun e => e.1))
    else
      let xi := s.x p o.list (o.f 71 4)
      let (s, us) := s.roundWords p (some o.list) round (o.f 75 32) (o.f 107 32) (used.map (fun e => xi + e.2))
      s.convertAll p fmt round ((used.map (fun e => accVal (if type = 1 then 2 else if type = 2 then 0 else 1) e.1 anchor)).zip us)
  let data := packElems (8 * eo) bits
  let old := (s.tile p).vreg o.vd
  okOut (s.setVreg p o.vd (if eo < ei then setFld old (8 * (part * (512 / ei) * eo)) (8 * (512 / ei * eo)) data else data))

/-- vec.rand (R256): lane l takes bytes [7:0] of its block. -/
def opVecRand (p : Nat) (o : Op) (s : State) : Outcome :=
  let xi := s.x p o.list (o.f 33 4)
  let (s, bs) := s.drawAll p (some o.list) (o.f 37 32) (o.f 69 32) (span xi 64)
  okOut (s.setVreg p o.vd (packElems 64 bs))

/-- Rows from `r` to the end of the region it lies in; 0 in a hole (R27). -/
def rowRoom (r : Nat) : Nat :=
  if r < 0x6000 then 0x6000 - r
  else if 0x8000 ≤ r ∧ r < 0x8800 then 512 - (r - 0x8000) % 512
  else 0

def extentStatus (r n : Nat) : Nat := if rowRoom r = 0 then stBadParam else if n > rowRoom r then stLength else stOk

/-- The sum of two rows of partials, element by element (R159). Log entry 31: DEDUCED. -/
def joinRow (type a b : Nat) : Nat :=
  packElems (typeBits type) (List.zipWith (fun x y => contribute (if type = 1 then 2 else 1) x y) (elems type a) (elems type b))

/-- vec.join to rows: each row read, added and written, in ascending order. Log entry 31: DEDUCED. -/
def State.joinRows (s : State) (p type src dst : Nat) : Nat → State
  | 0 => s
  | n + 1 =>
    let (s, x) := readRow s p src
    let (s, y) := readRow s p dst
    (writeRow s p dst (row (joinRow type y.toNat x.toNat))).joinRows p type (src + 1) (dst + 1) n

/-- vec.join to a group: each row of partials in ascending order, a contribution row-major from element `e` of the group,
with one read and one write of each store row it occupies (R148, R185). -/
def State.joinGroup (s : State) (p a gid type src e : Nat) : Nat → State
  | 0 => s
  | n + 1 =>
    let (s, x) := readRow s p src
    let l := elems type x.toNat
    let gc := ((s.tile p).group a gid).gcols
    (s.contributeRow p a gid (e / gc) (e % gc) (l.map some)).joinGroup p a gid type (src + 1) (e + l.length) n

def anchorMismatch (s : State) (p : Nat) : Outcome := failOut (s.count1 0x0A02 p) stBadParam 0

def opVecJoin (p : Nat) (o : Op) (s : State) : Outcome :=
  let type := o.vtype
  let n := o.f 49 16
  let as := o.f 65 16
  let ad := o.f 81 16
  let s := if bit o.bits 97 then s.nameGroups p o.list [o.f 114 2] (o.f 116 5) else s
  match o.ix 33 16 with
  | none => failOut s stBadParam 0
  | some src =>
    if type = 1 ∧ as ≠ ad then anchorMismatch s p
    else if extentStatus src n ≠ stOk then failOut s (extentStatus src n) 0
    else if !bit o.bits 97 then
      match o.ix 98 16 with
      | none => failOut s stBadParam 0
      | some dst =>
        if extentStatus dst n ≠ stOk then failOut s (extentStatus dst n) 0
        else okOut (s.joinRows p type src dst n)
    else
      let a := o.f 114 2
      let gid := o.f 116 5
      match o.ix 121 15 with
      | none => failOut s stBadParam 0
      | some grow =>
        let (s, st) := s.claimGroup p a o.list gid
        let g := (s.tile p).group a gid
        if st ≠ stOk then failOut s st 0
        else if g.fmt ≠ (if type = 1 then 2 else 1) then failOut s stBadParam 0
        else if type = 1 ∧ signed 16 as ≠ g.anchor then anchorMismatch s p
        else if grow + cdiv (n * typeElems type) g.gcols > g.grows then failOut s stLength 0
        else okOut (s.joinGroup p a gid type src (grow * g.gcols) n)

/-! ### The operations of the table -/

/-- The meaning of a vector operation by its code. -/
def vecMeaning (code : Nat) : Nat → Op → State → Outcome :=
  match code with
  | 0x40 => opVecLd
  | 0x41 => opVecSt
  | 0x42 => opVec2 vAdd
  | 0x43 => opVec2 vSub
  | 0x44 => opVec2 vMul
  | 0x45 => opVecFma
  | 0x46 => opVec2 vMax
  | 0x47 => opVec2 vMin
  | 0x48 => opVecCmp
  | 0x49 => opVecSel
  | 0x4A => opVec1 (vFun expF32)
  | 0x4B => opVec1 (vFun rcpF32)
  | 0x4C => opVec1 (vFun rsqF32)
  | 0x4D => opVecAll vSum
  | 0x4E => opVecAll vMaxAll
  | 0x4F => opVecBcast
  | 0x50 => opVecCmask
  | 0x51 => opVecCvt
  | 0x52 => opVecRand
  | _ => opVecJoin

/-- Issues the vector operation of one code with meaning `f`. -/
def State.issueVec (s : State) (t l code : Nat) (f : Nat → Op → State → Outcome) : Result :=
  .next (s.issue t l false (fun c => c == code) (fun p o s => (f p o s).later p o [.vec] [] []))

def execVecLd (t l : Nat) (s : State) : Result := s.issueVec t l 0x40 opVecLd
def execVecSt (t l : Nat) (s : State) : Result := s.issueVec t l 0x41 opVecSt
def execVecAdd (t l : Nat) (s : State) : Result := s.issueVec t l 0x42 (opVec2 vAdd)
def execVecSub (t l : Nat) (s : State) : Result := s.issueVec t l 0x43 (opVec2 vSub)
def execVecMul (t l : Nat) (s : State) : Result := s.issueVec t l 0x44 (opVec2 vMul)
def execVecFma (t l : Nat) (s : State) : Result := s.issueVec t l 0x45 opVecFma
def execVecMax (t l : Nat) (s : State) : Result := s.issueVec t l 0x46 (opVec2 vMax)
def execVecMin (t l : Nat) (s : State) : Result := s.issueVec t l 0x47 (opVec2 vMin)
def execVecCmp (t l : Nat) (s : State) : Result := s.issueVec t l 0x48 opVecCmp
def execVecSel (t l : Nat) (s : State) : Result := s.issueVec t l 0x49 opVecSel
def execVecExp (t l : Nat) (s : State) : Result := s.issueVec t l 0x4A (opVec1 (vFun expF32))
def execVecRcp (t l : Nat) (s : State) : Result := s.issueVec t l 0x4B (opVec1 (vFun rcpF32))
def execVecRsq (t l : Nat) (s : State) : Result := s.issueVec t l 0x4C (opVec1 (vFun rsqF32))
def execVecRsum (t l : Nat) (s : State) : Result := s.issueVec t l 0x4D (opVecAll vSum)
def execVecRmax (t l : Nat) (s : State) : Result := s.issueVec t l 0x4E (opVecAll vMaxAll)
def execVecBcast (t l : Nat) (s : State) : Result := s.issueVec t l 0x4F opVecBcast
def execVecCmask (t l : Nat) (s : State) : Result := s.issueVec t l 0x50 opVecCmask
def execVecCvt (t l : Nat) (s : State) : Result := s.issueVec t l 0x51 opVecCvt
def execVecRand (t l : Nat) (s : State) : Result := s.issueVec t l 0x52 opVecRand
def execVecJoin (t l : Nat) (s : State) : Result := s.issueVec t l 0x53 opVecJoin

/-- A compatibility vector operation acts as the native one of its code (R192). -/
def execCVec (t l : Nat) (s : State) : Result :=
  .next (s.issue t l true (fun c => decide (0x40 ≤ c) && decide (c ≤ 0x4F))
    (fun p o s => (vecMeaning o.code p o s).later p o [.vec] [] []))

end Sys2Proof.Machine
end

