-- ==== Sys2Proof/Machine/Dispatch.lean ====
section
/-! DEFINITION. The meaning of each command: one arm per constructor of `Instr`, each one direct call. -/

namespace Sys2Proof.Machine

def exec (i : Instr) (s : State) : Host.Outcome State Fault Refusal :=
  match i with
  | .nop t l => Sys2Proof.Machine.execNop t l s
  | .ctlEnd t l => Sys2Proof.Machine.execCtlEnd t l s
  | .ctlLi t l => Sys2Proof.Machine.execCtlLi t l s
  | .ctlAdd t l => Sys2Proof.Machine.execCtlAdd t l s
  | .ctlLd t l => Sys2Proof.Machine.execCtlLd t l s
  | .ctlBr t l => Sys2Proof.Machine.execCtlBr t l s
  | .ctlJmp t l => Sys2Proof.Machine.execCtlJmp t l s
  | .ctlInfo t l => Sys2Proof.Machine.execCtlInfo t l s
  | .ctlDfind t l => Sys2Proof.Machine.execCtlDfind t l s
  | .syncWait t l => Sys2Proof.Machine.execSyncWait t l s
  | .syncWaitRelease t l => Sys2Proof.Machine.execSyncWaitRelease t l s
  | .syncAdd t l => Sys2Proof.Machine.execSyncAdd t l s
  | .syncSet t l => Sys2Proof.Machine.execSyncSet t l s
  | .arrMm t l => Sys2Proof.Machine.execArrMm t l s
  | .spMm t l => Sys2Proof.Machine.execSpMm t l s
  | .accOpen t l => Sys2Proof.Machine.execAccOpen t l s
  | .accClose t l => Sys2Proof.Machine.execAccClose t l s
  | .accRec t l => Sys2Proof.Machine.execAccRec t l s
  | .accAdopt t l => Sys2Proof.Machine.execAccAdopt t l s
  | .concAnd t l => Sys2Proof.Machine.execConcAnd t l s
  | .concOr t l => Sys2Proof.Machine.execConcOr t l s
  | .concAndn t l => Sys2Proof.Machine.execConcAndn t l s
  | .concPop t l => Sys2Proof.Machine.execConcPop t l s
  | .concScan t l => Sys2Proof.Machine.execConcScan t l s
  | .concMatch t l => Sys2Proof.Machine.execConcMatch t l s
  | .mrgRun t l => Sys2Proof.Machine.execMrgRun t l s
  | .dispRun t l => Sys2Proof.Machine.execDispRun t l s
  | .vecLd t l => Sys2Proof.Machine.execVecLd t l s
  | .vecSt t l => Sys2Proof.Machine.execVecSt t l s
  | .vecAdd t l => Sys2Proof.Machine.execVecAdd t l s
  | .vecSub t l => Sys2Proof.Machine.execVecSub t l s
  | .vecMul t l => Sys2Proof.Machine.execVecMul t l s
  | .vecFma t l => Sys2Proof.Machine.execVecFma t l s
  | .vecMax t l => Sys2Proof.Machine.execVecMax t l s
  | .vecMin t l => Sys2Proof.Machine.execVecMin t l s
  | .vecCmp t l => Sys2Proof.Machine.execVecCmp t l s
  | .vecSel t l => Sys2Proof.Machine.execVecSel t l s
  | .vecExp t l => Sys2Proof.Machine.execVecExp t l s
  | .vecRcp t l => Sys2Proof.Machine.execVecRcp t l s
  | .vecRsq t l => Sys2Proof.Machine.execVecRsq t l s
  | .vecRsum t l => Sys2Proof.Machine.execVecRsum t l s
  | .vecRmax t l => Sys2Proof.Machine.execVecRmax t l s
  | .vecBcast t l => Sys2Proof.Machine.execVecBcast t l s
  | .vecCmask t l => Sys2Proof.Machine.execVecCmask t l s
  | .vecCvt t l => Sys2Proof.Machine.execVecCvt t l s
  | .vecRand t l => Sys2Proof.Machine.execVecRand t l s
  | .vecJoin t l => Sys2Proof.Machine.execVecJoin t l s
  | .strGo t l => Sys2Proof.Machine.execStrGo t l s
  | .strCancel t l => Sys2Proof.Machine.execStrCancel t l s
  | .cNop t l => Sys2Proof.Machine.execCNop t l s
  | .cEnd t l => Sys2Proof.Machine.execCEnd t l s
  | .cLi t l => Sys2Proof.Machine.execCLi t l s
  | .cAdd t l => Sys2Proof.Machine.execCAdd t l s
  | .cBr t l => Sys2Proof.Machine.execCBr t l s
  | .cJmp t l => Sys2Proof.Machine.execCJmp t l s
  | .cInfo t l => Sys2Proof.Machine.execCInfo t l s
  | .cWait t l => Sys2Proof.Machine.execCWait t l s
  | .cSadd t l => Sys2Proof.Machine.execCSadd t l s
  | .cMm t l => Sys2Proof.Machine.execCMm t l s
  | .cDrain t l => Sys2Proof.Machine.execCDrain t l s
  | .cVec t l => Sys2Proof.Machine.execCVec t l s
  | .cSgo t l => Sys2Proof.Machine.execCSgo t l s
  | .cScancel t l => Sys2Proof.Machine.execCScancel t l s
  | .operationComplete t k => Sys2Proof.Machine.execOperationComplete t k s
  | .rampPhaseEnd t a => Sys2Proof.Machine.execRampPhaseEnd t a s
  | .launchEnd t => Sys2Proof.Machine.execLaunchEnd t s
  | .strCopy t q => Sys2Proof.Machine.execStrCopy t q s
  | .strGather t q => Sys2Proof.Machine.execStrGather t q s
  | .strMatch t q => Sys2Proof.Machine.execStrMatch t q s
  | .winctlOpen t q => Sys2Proof.Machine.execWinctlOpen t q s
  | .winctlClose t q => Sys2Proof.Machine.execWinctlClose t q s
  | .winctlReturn t q => Sys2Proof.Machine.execWinctlReturn t q s
  | .winctlRead t q => Sys2Proof.Machine.execWinctlRead t q s
  | .rowReadReturn t q k hbmErr => Sys2Proof.Machine.execRowReadReturn t q k hbmErr s
  | .rowWriteComplete t q => Sys2Proof.Machine.execRowWriteComplete t q s
  | .cancelComplete t q => Sys2Proof.Machine.execCancelComplete t q s
  | .cancelTimeout t q => Sys2Proof.Machine.execCancelTimeout t q s
  | .creditRequest k => Sys2Proof.Machine.execCreditRequest k s
  | .creditGrant k => Sys2Proof.Machine.execCreditGrant k s
  | .windowRowArrival k => Sys2Proof.Machine.execWindowRowArrival k s
  | .arcadeWwr t w gen off row => Sys2Proof.Machine.execArcadeWwr t w gen off row s
  | .rngRefill t slot => Sys2Proof.Machine.execRngRefill t slot s
  | .arbiterRequest r a => Sys2Proof.Machine.execArbiterRequest r a s
  | .arbiterRelease r => Sys2Proof.Machine.execArbiterRelease r s
  | .deadlinePassed r ix => Sys2Proof.Machine.execDeadlinePassed r ix s
  | .watchdogBite r silent => Sys2Proof.Machine.execWatchdogBite r silent s
  | .patrolRead b => Sys2Proof.Machine.execPatrolRead b s
  | .eccWriteBack b => Sys2Proof.Machine.execEccWriteBack b s
  | .combineLateCheck b => Sys2Proof.Machine.execCombineLateCheck b s
  | .hbmRefresh c => Sys2Proof.Machine.execHbmRefresh c s
  | .refClockLoss d => Sys2Proof.Machine.execRefClockLoss d s
  | .refClockReturn d => Sys2Proof.Machine.execRefClockReturn d s
  | .arcadeCmd hdr payload => Sys2Proof.Machine.execArcadeCmd hdr payload s
  | .i3cPrivateWrite hdr payload => Sys2Proof.Machine.execI3cPrivateWrite hdr payload s
  | .jtagCommand hdr payload => Sys2Proof.Machine.execJtagCommand hdr payload s
  | .arcadeCtlWrite w v => Sys2Proof.Machine.execArcadeCtlWrite w v s
  | .arcadeSnp line => Sys2Proof.Machine.execArcadeSnp line s
  | .arcadeRetrain => Sys2Proof.Machine.execArcadeRetrain s
  | .replyRingWrite => Sys2Proof.Machine.execReplyRingWrite s
  | .cmdFrame p f => Sys2Proof.Machine.execCmdFrame p f s
  | .rplFrame p f => Sys2Proof.Machine.execRplFrame p f s
  | .dataFrame p f => Sys2Proof.Machine.execDataFrame p f s
  | .tallyFrame p f => Sys2Proof.Machine.execTallyFrame p f s
  | .ackFrame p f => Sys2Proof.Machine.execAckFrame p f s
  | .helloFrame p f => Sys2Proof.Machine.execHelloFrame p f s
  | .laneFrame p f => Sys2Proof.Machine.execLaneFrame p f s
  | .helloSend p lane => Sys2Proof.Machine.execHelloSend p lane s
  | .controlRetry p house => Sys2Proof.Machine.execControlRetry p house s
  | .peerLost p house => Sys2Proof.Machine.execPeerLost p house s
  | .conversationFree p house => Sys2Proof.Machine.execConversationFree p house s
  | .laneLockLoss p => Sys2Proof.Machine.execLaneLockLoss p s
  | .laneBerCheck p bad => Sys2Proof.Machine.execLaneBerCheck p bad s
  | .laneTestDone p lane clean => Sys2Proof.Machine.execLaneTestDone p lane clean s
  | .cxlLinkDown x e => Sys2Proof.Machine.execCxlLinkDown x e s
  | .cxlExpanderAttach x e rows => Sys2Proof.Machine.execCxlExpanderAttach x e rows s
  | .curatorHeartbeat => Sys2Proof.Machine.execCuratorHeartbeat s
  | .standbyTakeover => Sys2Proof.Machine.execStandbyTakeover s
  | .tileDrained t => Sys2Proof.Machine.execTileDrained t s
  | .recalDone t res => Sys2Proof.Machine.execRecalDone t res s
  | .apertureDrained a => Sys2Proof.Machine.execApertureDrained a s
  | .inventoryFlush fail1 fail2 => Sys2Proof.Machine.execInventoryFlush fail1 fail2 s
  | .castResubscribe quarter => Sys2Proof.Machine.execCastResubscribe quarter s
  | .collPhaseTimeout id => Sys2Proof.Machine.execCollPhaseTimeout id s
  | .collHeldTimeout id => Sys2Proof.Machine.execCollHeldTimeout id s
  | .collEntryExpiry id => Sys2Proof.Machine.execCollEntryExpiry id s
  | .inputRise mv => Sys2Proof.Machine.execInputRise mv s
  | .pwrGoodRise => Sys2Proof.Machine.execPwrGoodRise s
  | .inputLoss mv => Sys2Proof.Machine.execInputLoss mv s
  | .inputOvervoltage mv => Sys2Proof.Machine.execInputOvervoltage mv s
  | .resetNFall us => Sys2Proof.Machine.execResetNFall us s
  | .resetNRise => Sys2Proof.Machine.execResetNRise s
  | .stripSelfTest d0 d7 => Sys2Proof.Machine.execStripSelfTest d0 d7 s
  | .d0VerdictTimeout d7 => Sys2Proof.Machine.execD0VerdictTimeout d7 s
  | .holdingsRead => Sys2Proof.Machine.execHoldingsRead s
  | .dieBringUp res => Sys2Proof.Machine.execDieBringUp res s
  | .curatorStart up => Sys2Proof.Machine.execCuratorStart up s
  | .powerInterval watts temps => Sys2Proof.Machine.execPowerInterval watts temps s
  | .peakLimit watts => Sys2Proof.Machine.execPeakLimit watts s
  | .capHold watts => Sys2Proof.Machine.execCapHold watts s
  | .limiterRelease watts => Sys2Proof.Machine.execLimiterRelease watts s
  | .dieThrottle d temp => Sys2Proof.Machine.execDieThrottle d temp s
  | .dieOverTemp d temp => Sys2Proof.Machine.execDieOverTemp d temp s
  | .stackHot m temp => Sys2Proof.Machine.execStackHot m temp s
  | .thermalTrip onDie ix temp => Sys2Proof.Machine.execThermalTrip onDie ix temp s
  | .lowFlow mlpm => Sys2Proof.Machine.execLowFlow mlpm s
  | .sysNop n => Sys2Proof.Machine.execSysNop n s
  | .sysInfo n => Sys2Proof.Machine.execSysInfo n s
  | .sysStatus n => Sys2Proof.Machine.execSysStatus n s
  | .sysReset n => Sys2Proof.Machine.execSysReset n s
  | .sysPower n => Sys2Proof.Machine.execSysPower n s
  | .sysTelemetry n => Sys2Proof.Machine.execSysTelemetry n s
  | .sysBufRead n => Sys2Proof.Machine.execSysBufRead n s
  | .cfgRead n => Sys2Proof.Machine.execCfgRead n s
  | .cfgWrite n => Sys2Proof.Machine.execCfgWrite n s
  | .cfgCommit n => Sys2Proof.Machine.execCfgCommit n s
  | .cfgDiscard n => Sys2Proof.Machine.execCfgDiscard n s
  | .cfgApertureAdd n => Sys2Proof.Machine.execCfgApertureAdd n s
  | .cfgApertureDel n => Sys2Proof.Machine.execCfgApertureDel n s
  | .progLoad n => Sys2Proof.Machine.execProgLoad n s
  | .progPut n => Sys2Proof.Machine.execProgPut n s
  | .progCopy n => Sys2Proof.Machine.execProgCopy n s
  | .progLaunch n => Sys2Proof.Machine.execProgLaunch n s
  | .progCancel n => Sys2Proof.Machine.execProgCancel n s
  | .winOpen n => Sys2Proof.Machine.execWinOpen n s
  | .winClose n => Sys2Proof.Machine.execWinClose n s
  | .winReturn n => Sys2Proof.Machine.execWinReturn n s
  | .winRead n => Sys2Proof.Machine.execWinRead n s
  | .winCredit n => Sys2Proof.Machine.execWinCredit n s
  | .streamQread n => Sys2Proof.Machine.execStreamQread n s
  | .streamQwrite n => Sys2Proof.Machine.execStreamQwrite n s
  | .streamGo n => Sys2Proof.Machine.execStreamGo n s
  | .streamCancel n => Sys2Proof.Machine.execStreamCancel n s
  | .ctxSave n => Sys2Proof.Machine.execCtxSave n s
  | .ctxRestore n => Sys2Proof.Machine.execCtxRestore n s
  | .ctxCheck n => Sys2Proof.Machine.execCtxCheck n s
  | .rngRead n => Sys2Proof.Machine.execRngRead n s
  | .rngWrite n => Sys2Proof.Machine.execRngWrite n s
  | .ctrRead n => Sys2Proof.Machine.execCtrRead n s
  | .ctrSnapshot n => Sys2Proof.Machine.execCtrSnapshot n s
  | .ctrClear n => Sys2Proof.Machine.execCtrClear n s
  | .invRead n => Sys2Proof.Machine.execInvRead n s
  | .invDrain n => Sys2Proof.Machine.execInvDrain n s
  | .invRecal n => Sys2Proof.Machine.execInvRecal n s
  | .invRetireTile n => Sys2Proof.Machine.execInvRetireTile n s
  | .invPresent n => Sys2Proof.Machine.execInvPresent n s
  | .invRetireRow n => Sys2Proof.Machine.execInvRetireRow n s
  | .invRelocate n => Sys2Proof.Machine.execInvRelocate n s
  | .invRecord n fail1 fail2 => Sys2Proof.Machine.execInvRecord n fail1 fail2 s
  | .castSubscribe n => Sys2Proof.Machine.execCastSubscribe n s
  | .castUnsubscribe n => Sys2Proof.Machine.execCastUnsubscribe n s
  | .castStatus n => Sys2Proof.Machine.execCastStatus n s
  | .takeoverOffer n => Sys2Proof.Machine.execTakeoverOffer n s
  | .takeoverAssume n => Sys2Proof.Machine.execTakeoverAssume n s
  | .takeoverAnnounce n => Sys2Proof.Machine.execTakeoverAnnounce n s
  | .updStage n fail1 fail2 => Sys2Proof.Machine.execUpdStage n fail1 fail2 s
  | .updVerify n => Sys2Proof.Machine.execUpdVerify n s
  | .updActivate n fail1 fail2 => Sys2Proof.Machine.execUpdActivate n fail1 fail2 s
  | .updStatus n => Sys2Proof.Machine.execUpdStatus n s
  | .attestReport n => Sys2Proof.Machine.execAttestReport n s
  | .attestCerts n => Sys2Proof.Machine.execAttestCerts n s
  | .linkStatus n => Sys2Proof.Machine.execLinkStatus n s
  | .linkSpare n => Sys2Proof.Machine.execLinkSpare n s
  | .linkQuarantine n => Sys2Proof.Machine.execLinkQuarantine n s
  | .linkDigest n => Sys2Proof.Machine.execLinkDigest n s
  | .linkCollBegin n => Sys2Proof.Machine.execLinkCollBegin n s
  | .linkCollReady n => Sys2Proof.Machine.execLinkCollReady n s
  | .linkCollEnd n => Sys2Proof.Machine.execLinkCollEnd n s
  | .overTemperatureEnd onDie ix temp => Sys2Proof.Machine.execOverTemperatureEnd onDie ix temp s
  | .flowRestored mlpm => Sys2Proof.Machine.execFlowRestored mlpm s
  | .inputOutOfRange mv => Sys2Proof.Machine.execInputOutOfRange mv s
  | .railLeavesRegulation => Sys2Proof.Machine.execRailLeavesRegulation s
  | .stripFailure => Sys2Proof.Machine.execStripFailure s
  | .portTrainingDone p lane => Sys2Proof.Machine.execPortTrainingDone p lane s

end Sys2Proof.Machine
end

