-- ==== Sys2Proof/Safety.lean ====
section
/-! DEFINITION. What a good state is (every memory in its canonical form), and the words in which the claims speak: a
state without its counts, a command that starts, an operation that issues, and what each leaves alone. -/

namespace Sys2Proof.Machine

/-! ### Good states -/

/-- Every memory tier outside the tiles is in canonical form. -/
def Memory.wf (m : Memory) : Bool := Sparse.wf 0 m.hbm && Sparse.wf 0 m.cxl && Sparse.wf 0 m.comp

/-- The memory of the block is in canonical form: the three tiers, the table of tiles, and every tile's rows. -/
def State.wf (s : State) : Prop :=
  s.mem.wf = true ∧ Sparse.wf Tile.reset s.tiles = true ∧ ∀ p, Sparse.wf 0 (s.tile p).rows = true

/-! ### What a claim leaves out of account -/

/-- The state without what counting an event changes: counters, trace, and the counts held through start-up. -/
def State.uncounted (s : State) : State :=
  { s with counters := [], trace := { buf := [], seq := 0 }, boot := { s.boot with held := [] } }

/-- `u` differs from `s` at most in physical tile `p` and in counts. -/
def OnlyTile (s u : State) (p : Nat) : Prop :=
  u.uncounted = ({ s with tiles := u.tiles }).uncounted ∧ ∀ q, q ≠ p → u.tile q = s.tile q

/-- No cell that holds row `r` is faulty, and no write-back of the row is outstanding. -/
def Tile.cleanAt (t : Tile) (r : Nat) : Bool :=
  (t.faultsAt (bankOf r).1 (bankOf r).2).isEmpty && !(t.bank (bankOf r).1).wback.contains (bankOf r).2

/-- A tile's units as they stand outside the sequencer: groups, ramps, output tiles, vector registers, windows, queues,
credit accounts, lane queues and input buffers, random buffers and draw cursors. -/
def Tile.unitState (t : Tile) : Tile :=
  { t with
    rows := [], fresh := [], banks := [], signals := [], launch := none, lists := [], current := 0, flights := [],
    combines := 0 }

/-- Every row of tile `p` outside the completion record of launch `la` reads as before. -/
def RowsKept (s u : State) (p : Nat) (la : Launch) : Prop :=
  ∀ r, ¬ (la.compRow ≤ r ∧ r < la.compRow + la.compRows) →
    Sparse.get 0 (u.tile p).rows r = Sparse.get 0 (s.tile p).rows r

/-! ### Operations of tile programs -/

/-- Operation `o` is the one that list `l` of logical tile `t`, presented by physical tile `p`, issues next in launch `la`;
`c` says that the launch runs in compatibility mode. -/
structure Reaches (s : State) (t l : Nat) (c : Bool) (p : Nat) (la : Launch) (o : Op) : Prop where
  phys   : s.phys t = some p
  launch : (s.tile p).launch = some la
  mode   : la.compat = c
  next   : (s.tile p).next l = some o

/-- No row of the completion record of tile `p`'s launch has a fault. -/
def RecordClean (s : State) (p : Nat) : Prop :=
  ∀ la, (s.tile p).launch = some la → ∀ r, la.compRow < r → r < la.compRow + la.compRows → (s.tile p).cleanAt r = true

/-- The `n` rows of tile `p` from `r` have no fault. -/
def CleanRows (s : State) (p r n : Nat) : Prop := ∀ i, i < n → (s.tile p).cleanAt (r + i) = true

/-- The rows that the sequencer reads for `o` are read without a fault: those of its bundle, when it is the bundle's first,
and those of the completion record. What a read that finds a fault does is stated of reads (R203). -/
structure Issues (s : State) (t l : Nat) (c : Bool) (p : Nat) (la : Launch) (o : Op) : Prop
    extends Reaches s t l c p la o where
  bundleRead : o.slot = 0 → ∀ r ∈ bundleRows la.compat la.progBase o.bundle (fld o.raw 0 2 == 3),
    (s.tile p).cleanAt r = true
  recordRead : RecordClean s p

/-- Value of a signal after `o` has completed once: DONE_SIG counts when DONE_EN is 1 (R167). -/
def doneValue (o : Op) (e v : Nat) : Nat := if o.doneSig = some e then (v + 1) % 2 ^ 32 else v

/-- The bundle that `o` stands in. -/
def Op.bundleOf (o : Op) (la : Launch) : Bundle := parseBundle la.compat o.raw o.bundle

/-- Where list `l` of tile `p` stands once `o` has issued (R166, R189): in the next slot of its bundle, or, after the last
slot, at the branch target or the next bundle; there the list ends if it issued ctl.end, or if it ran off its program and no
sync.wait of the bundle holds it (R178). -/
def MovedOn (s u : State) (p l : Nat) (la : Launch) (o : Op) (branch : Option Nat) (ending : Bool) : Prop :=
  let w := (s.tile p).list l
  let v := (u.tile p).list l
  let target := branch.orElse (fun _ => w.target)
  let b := o.bundleOf la
  if o.slot + 1 < b.slots.length then v.slot = o.slot + 1 ∧ v.pc = w.pc ∧ v.ended = w.ended ∧ v.target = target ∧
    v.ending = (ending || w.ending)
  else v.slot = 0 ∧ v.pc = target.getD b.next ∧
    (v.ended = true ↔ (ending = true ∨ w.ending = true ∨ (v.pc ≥ progBundles la.compat la.progRows ∧ v.waiting = [])))

/-- 1 when the list runs past its program as `o` issues, which takes an entry of its own (R189), with no wait of the bundle to
hold it; else 0. -/
def ranOff (s : State) (p l : Nat) (la : Launch) (o : Op) : Nat :=
  let w := (s.tile p).list l
  let b := o.bundleOf la
  if ¬ o.slot + 1 < b.slots.length ∧ w.ending = false ∧ w.target.getD b.next ≥ progBundles la.compat la.progRows ∧
    w.waiting = [] then 1 else 0

/-- `o` is rejected with a status and DETAIL (R167): it enters no unit, its entry is the next of the completion record, it
counts as rejected, and is the first so if there was none; the list moves on. -/
def Rejected (s u : State) (p l : Nat) (la : Launch) (o : Op) (status detail : Nat) : Prop :=
  (u.tile p).flights = (s.tile p).flights ∧ MovedOn s u p l la o none false ∧ OnlyTile s u p ∧ RowsKept s u p la ∧
  ∃ la', (u.tile p).launch = some la' ∧ la'.entries = la.entries + 1 + ranOff s p l la o ∧
    la'.rejects = la.rejects + 1 + ranOff s p l la o ∧
    la'.first = (match la.first with
      | some e => some e
      | none => some (o.bundle, status)) ∧
    (la.entries / 16 + 1 < la.compRows →
      elem 256 (Sparse.get 0 (u.tile p).rows (la.compRow + 1 + la.entries / 16)).toNat (la.entries % 16) =
        Entry.bits { bundle := o.bundle, slot := o.slot, list := l, status := status, detail := detail, opcode := o.code,
                     res0 := 0, res1 := 0 } la.entries)

/-- The operation in flight that entered last. -/
def LastFlight (u : State) (p : Nat) (P : Flight → Prop) : Prop := ∃ f, (u.tile p).flights.getLast? = some f ∧ P f

/-- Lists other than `l`, and their registers, are as before. -/
def OtherLists (s u : State) (p l : Nat) : Prop := ∀ k, k ≠ l → (u.tile p).list k = (s.tile p).list k

/-- What an operation of the sequencer leaves alone: everything outside its tile, the tile's units, what is in flight, the
other lists, and every row but those of the completion record. -/
def SequencerOnly (s u : State) (p l : Nat) (la : Launch) : Prop :=
  OnlyTile s u p ∧ (u.tile p).unitState = (s.tile p).unitState ∧ (u.tile p).flights = (s.tile p).flights ∧
  OtherLists s u p l ∧ RowsKept s u p la

/-- What the issue of an operation of a unit adds to its tile: one flight at the end, taking a place in the queues of
`units` and interlocking `regs`; the list moves on; the other lists and every signal are as before. -/
def Entered (s u : State) (p l : Nat) (la : Launch) (o : Op) (units : List TileUnit) (regs : List Nat) : Prop :=
  (∃ f : Flight, (u.tile p).flights = (s.tile p).flights ++ [f] ∧ f.list = l ∧ f.bundle = o.bundle ∧ f.slot = o.slot ∧
    f.opcode = o.code ∧ f.doneSig = o.doneSig ∧ f.crec = o.crec ∧ f.status = stOk ∧ f.units = units ∧
    f.regs = regs.filter (fun x => x != 0)) ∧
  MovedOn s u p l la o none false ∧ OtherLists s u p l ∧ (u.tile p).signals = (s.tile p).signals

/-! ### Commands to Curator -/

/-- Command `n`, held as `c`, is the next that Curator may start; its opcode is `op` and its parameters are in range
(Table 13-9, R299). -/
structure Starts (s : State) (n op : Nat) (c : Cmd) : Prop where
  held   : s.cmd n = some c
  opcode : hOpcode c.hdr = op
  may    : s.canStart c = true
  params : ∃ m ps, cmdSpec op = some (m, ps) ∧ paramFault op ps c.hdr = none

/-- Command `c` has drawn its final reply; `e` is the state that its effect left before the reply. -/
def Answered (e u : State) (c : Cmd) (status detail : Nat) (results : List Nat) : Prop :=
  u = e.answerFinal c (mkReply c.hdr status detail false results)

/-- `i` is answered with STATUS, DETAIL and RESULT words `r`, in a state of which `P` holds before the reply is sent. -/
def Does (s : State) (i : Instr) (c : Cmd) (status detail : Nat) (r : List Nat) (P : State → Prop) : Prop :=
  ∃ e u, exec i s = .next u ∧ Answered e u c status detail r ∧ P e

/-- HBM holds `rows` from row `r` on, and its other rows read as before. -/
def HbmHolds (s e : State) (r : Nat) (rows : List Row) : Prop :=
  (∀ i x, rows[i]? = some x → Sparse.get 0 e.mem.hbm (r + i) = x) ∧
  ∀ k, ¬ (r ≤ k ∧ k < r + rows.length) → Sparse.get 0 e.mem.hbm k = Sparse.get 0 s.mem.hbm k

/-- `i` writes `rows` where the result goes (R298), changes nothing else, and is answered OK with `r`. -/
def Reports (s : State) (i : Instr) (c : Cmd) (addr : Nat) (rows : List Row) (r : List Nat) : Prop :=
  s.resultStatus c addr rows.length = stOk →
  Does s i c stOk 0 r (fun e => e = s.putResult c addr rows ∧
    ∀ k, decodeAddr addr = some (.hbm k) → (c.port ≠ .i3c ∨ addr ≠ 0) → HbmHolds s e k rows)

/-- Command `n` stands in the journal as started and waits for `w`. -/
def Waits (u : State) (n : Nat) (w : Wait) : Prop := ∃ c, u.cmd n = some c ∧ c.st = .started ∧ c.wait = w

/-- Command `n` has drawn its final reply: it has left the journal for the entries that are REPLIED, or its reply waits for a slot of
the Arcade ring (R289, R305). -/
def Drawn (u : State) (n : Nat) : Prop := ∀ d, u.cmd n = some d → d.st = .done ∧ d.reply.isSome = true

/-- Timer `k` comes to its bound, and in the time that passes until then nothing falls due at an arbiter. -/
def Lapses (s : State) (k : Timer) (bound : Nat) : Prop := s.expire k bound = s.ripen k bound

/-- No watchdog of an arbiter is due at the reading `c` of its die's counter: none runs, or its limit has not been reached. -/
def NoBite (s : State) (r : ResId) (c : Nat) : Prop :=
  s.live (watchdogKey r) < 65536 ∧
  ∀ w, (s.arb r).since = some w ∨ (s.arb r).outer = some w →
    untilReading c (1024 * (w / 1024 + s.live (watchdogKey r) + 1)) ≠ 0

/-- Port `p`, direct or Ethernet, takes frame `f` as a frame of type `want` that passes every check: `s'` is the state with
its counts and LAST_PEER, `x` what the frame carries. -/
def Takes (s : State) (p : Nat) (f : RxFrame) (want : Nat) (s' : State) (x : Rx) : Prop := s.rx p f want = (s', some x)

/-- The frame is the next sequenced one of its conversation and carries no acknowledgement. -/
def NextInLine (s : State) (p : Nat) (x : Rx) (c : Conv) : Prop :=
  s.conv p x.src = some c ∧ x.seq = c.rxNext ∧ bit x.hdr 96 = false

/-! ### Memory without faults, and what an operand holds -/

/-- No cell of a tile is faulty, no write-back is outstanding, and no row of HBM or CXL has a fault: every read is clean. -/
def Faultless (s : State) : Prop :=
  (∀ p r, (s.tile p).cleanAt r = true) ∧ s.mem.hbmFaults = [] ∧ s.mem.poison = []

/-- The contents that a row of the device stands at. -/
def State.rawAt (s : State) : Place → Row
  | .hbm r => Sparse.get 0 s.mem.hbm r
  | .cxl x r => Sparse.get 0 s.mem.cxl (cxlKey x r)
  | .comp r => Sparse.get 0 s.mem.comp r
  | .scr t r => (match s.phys t with
    | some p => Sparse.get 0 (s.tile p).rows r
    | none => 0)
  | .peer _ _ _ _ _ => 0

/-- Rows of a region, first row least significant. -/
def State.regionAt (s : State) (a n : Nat) : Nat :=
  match decodeAddr a with
  | some pl => natOfRows ((List.range n).map (fun i => s.rawAt (pl.plus i)))
  | none => 0

/-- The place is a row of one of the regions. -/
def InRegions (rs : List (Nat × Nat)) (pl : Place) : Prop :=
  ∃ g ∈ rs, ∃ b, decodeAddr g.1 = some b ∧ ∃ i, i < g.2 ∧ pl = b.plus i

/-- Every row of HBM, CXL and companion memory outside the regions reads as before. -/
def MemKept (s u : State) (rs : List (Nat × Nat)) : Prop :=
  (∀ r, ¬ InRegions rs (.hbm r) → Sparse.get 0 u.mem.hbm r = Sparse.get 0 s.mem.hbm r) ∧
  (∀ r, ¬ InRegions rs (.comp r) → Sparse.get 0 u.mem.comp r = Sparse.get 0 s.mem.comp r) ∧
  ∀ k, (∀ x r, InRegions rs (.cxl x r) → k ≠ cxlKey x r) → Sparse.get 0 u.mem.cxl k = Sparse.get 0 s.mem.cxl k

/-- The rows behind each CXL port fit the port's addresses (Table 01-11). -/
abbrev PortsFit (s : State) : Prop := ∀ e ∈ s.mem.expanders, e.base + e.rows ≤ 2 ^ 33

/-- Block `k` of line `l` is present: its bit in the bitmap plane, as its row reads, and no padding bit (R80, R81). -/
def Tensor.bitAt (t : Tensor) (s : State) (l k : Nat) : Bool :=
  match decodeAddr t.bitmap with
  | some pl => decide (k < t.kb) && bit (s.readPlace (pl.plus (l * t.lineRows + k / 4096))).2.toNat (k % 4096)
  | none => false

/-- Present blocks before block `k` of line `l` in bitmap order: its packed position (R82). -/
def Tensor.posAt (t : Tensor) (s : State) (l k : Nat) : Nat :=
  ((List.range l).map (fun m => (List.range t.kb).countP (t.bitAt s m))).sum + (List.range k).countP (t.bitAt s l)

/-- The blocks of line `l` with their positions, those whose position reaches NNZB withheld (R93). -/
def Tensor.blocksAt (t : Tensor) (s : State) (l : Nat) : List (Nat × Nat) :=
  ((List.range t.kb).filter (fun k => t.bitAt s l k && decide (t.posAt s l k < t.nnzb))).map (fun k => (k, t.posAt s l k))

/-- The block at packed position `n` of an operand, as its rows read. -/
def State.block (s : State) (o : Operand) (n : Nat) : Nat × Nat := Sparse.get (0, 0) (s.gather o [n]).2 n

/-- `i` brings row `a` to the window unit of tile `p`, over the mesh or by a WWR message of the companion, and leaves `mesh`. -/
def Brings (s : State) (i : Instr) (p : Nat) (a : Arrival) (mesh : List Mesh) : Prop :=
  (∃ k st q t cur remain, i = .windowRowArrival k ∧
    s.mesh[k]? = some (.row st q t cur a.win a.byRow a.gen a.off remain a.data) ∧
    (s.mesh.take k).any (fun m => match m with
      | .row a' b' c' d' f' _ _ _ _ _ => a' == st && b' == q && c' == t && d' == cur && f' == a.win
      | _ => false) = false ∧
    a.src = srcWord st s.house ∧ s.owner t cur = some p ∧ mesh = dropAt s.mesh k) ∨
  (∃ t w, i = .arcadeWwr t w a.gen a.off a.data ∧ a.win = some w ∧ a.byRow = false ∧ a.src = srcCompanion ∧
    s.arc.linkUp = true ∧ s.phys t = some p ∧ mesh = s.mesh)

/-- What is left of a dropped row: an event counted at tile `p`, and the mesh without the row. All else stands but the tile's
windows. -/
def Dropped (s u : State) (p code : Nat) (mesh : List Mesh) : Prop :=
  u.uncounted = ({ s with tiles := u.tiles, mesh := mesh }).uncounted ∧ (∀ r, r ≠ p → u.tile r = s.tile r) ∧
  ({ u.tile p with windows := [] } : Tile) = { s.tile p with windows := [] } ∧ u.counter code p = s.counter code p + 1

/-- What sending replies leaves alone: everything but the reply ring, companion memory, the conversations, the journal,
the links, the counts and the model's own counter. -/
def State.quiet (s : State) : State :=
  { s.uncounted with
    arc := Arcade.reset, tx := [], convs := [], free := 0, timers := [], mem := { s.mem with comp := [] },
    cur := { s.cur with cmds := [], replied := [], mirror := [], mirrorReplied := [] } }

end Sys2Proof.Machine
end

