-- ==== Sys2Proof/Certificates/Slice0/Obligations.lean ====
section
/-! DEFINITION. The statements for the provers. -/

section
open Sys2Proof Sys2Proof.Machine

/-! ### The block -/

/-- The command at the front of the queue runs with the queue's rest; on an empty queue one tick of the block's own time
passes (log entry 7: the tick is the model's choice). -/
def Obligations.StepRunsFront : Prop :=
  (∀ (c : Instr) (rest : List Instr) (s : State),
    step { s with pending := c :: rest } = exec c { s with pending := rest }) ∧
  ∀ s : State, step { s with pending := [] } = .next ({ s with pending := [] } : State).tick

/-- Every step keeps every memory of the block in its canonical form. -/
def Obligations.StepKeepsMemoryCanonical : Prop :=
  ∀ s u : State, s.wf → step s = .next u → u.wf

/-- The memories are in canonical form after reset. -/
def Obligations.ResetMemoryCanonical : Prop := State.reset.wf

/-! ### Operations of the sequencer -/

/-- Answers next, and register `d` of list `l` of tile `p` takes `v` modulo 2^64; x0 discards it and reads 0. -/
def Sys2Proof.Machine.WritesX (s : State) (r : Result) (p l : Nat) (la : Launch) (o : Op) (d v : Nat) : Prop :=
  ∃ u, r = .next u ∧ u.x p l d = (if d = 0 then 0 else v % 2 ^ 64) ∧ (∀ i, i ≠ d → u.x p l i = s.x p l i) ∧
    (∀ e, (u.tile p).signal e = doneValue o e ((s.tile p).signal e)) ∧ MovedOn s u p l la o none false ∧
    SequencerOnly s u p l la

/-- ctl.li, ctl.add and ctl.info, native and compatibility: the value written, x0 included, and everything left alone. -/
def Obligations.SequencerRegisters : Prop :=
  ∀ (s : State) (t l p : Nat) (c : Bool) (la : Launch) (o : Op), Issues s t l c p la o →
    (o.code = 0x02 →
      WritesX s (exec (if c then .cLi t l else .ctlLi t l) s) p l la o (o.f 16 4) (wrap 64 (signed 44 (o.f 20 44)))) ∧
    (o.code = 0x03 →
      WritesX s (exec (if c then .cAdd t l else .ctlAdd t l) s) p l la o (o.f 16 4)
        (wrap 64 ((s.x p l (o.f 20 4) + s.x p l (o.f 24 4) : Nat) + signed 32 (o.f 28 32)))) ∧
    (o.code = 0x07 →
      WritesX s (exec (if c then .cInfo t l else .ctlInfo t l) s) p l la o (o.f 16 4)
        (match o.f 20 8 with
         | 0 => s.width p 0
         | 1 => s.width p 1
         | 2 => s.width p 2
         | 3 => s.width p 3
         | 4 => (s.ent p).logical
         | 5 => s.house
         | 6 => la.launchId
         | 7 => l
         | _ => s.live keySeqTable))

/-- ctl.ld of a backed row of any tier: the 64-bit word WORD of the row at the address in xa, as the checked path of its tier
reads it, goes to XD at the operation's completion point; until then XD is interlocked and every register stands. -/
def Obligations.LoadWord : Prop :=
  ∀ (s : State) (t l p : Nat) (la : Launch) (o : Op) (pl : Place), Issues s t l false p la o → o.code = 0x04 →
    decodeAddr (s.x p l (o.f 20 4)) = some pl → s.room pl ≠ 0 → pl.tier ≠ 4 →
    ∃ u, exec (.ctlLd t l) s = .next u ∧
      LastFlight u p (fun f => f.writes = [(o.f 16 4, elem 64 (s.readPlace pl).2.toNat (o.f 24 6))]) ∧
      (∀ i, u.x p l i = s.x p l i) ∧ Entered s u p l la o [] [o.f 16 4] ∧ OnlyTile (s.readPlace pl).1 u p ∧
      RowsKept (s.readPlace pl).1 u p la ∧ (u.tile p).unitState = (s.tile p).unitState

/-- xa COND xb of ctl.br. -/
def Sys2Proof.Machine.BranchHolds (cond a b : Nat) : Prop :=
  (cond = 0 ∧ a = b) ∨ (cond = 1 ∧ a ≠ b) ∨ (cond = 2 ∧ signed 64 a < signed 64 b) ∨
  (cond = 3 ∧ signed 64 a ≥ signed 64 b) ∨ (cond = 4 ∧ a < b) ∨ (cond = 5 ∧ a ≥ b)

/-- The list moves on and nothing else of the program changes: registers, signals but DONE_SIG, and all that the sequencer
leaves alone. -/
def Sys2Proof.Machine.Moves (s : State) (r : Result) (p l : Nat) (la : Launch) (o : Op) (branch : Option Nat) (ending : Bool) : Prop :=
  ∃ u, r = .next u ∧ MovedOn s u p l la o branch ending ∧ (∀ i, u.x p l i = s.x p l i) ∧
    (∀ e, (u.tile p).signal e = doneValue o e ((s.tile p).signal e)) ∧ SequencerOnly s u p l la

/-- nop, ctl.end, ctl.br and ctl.jmp, native and compatibility: where the list goes. A ctl.end in the middle of a bundle marks
the list, which ends after the bundle's last slot, and of two taken branches in a bundle the later stands (both the model's
choice, log entry 15). -/
def Sys2Proof.Machine.SequencerMoves : Prop :=
  ∀ (s : State) (t l p : Nat) (c : Bool) (la : Launch) (o : Op), Issues s t l c p la o →
    (o.code = 0x00 → Moves s (exec (if c then .cNop t l else .nop t l) s) p l la o none false) ∧
    (o.code = 0x01 → Moves s (exec (if c then .cEnd t l else .ctlEnd t l) s) p l la o none true) ∧
    (o.code = 0x05 → BranchHolds (o.f 16 3) (s.x p l (o.f 19 4)) (s.x p l (o.f 23 4)) →
      Moves s (exec (if c then .cBr t l else .ctlBr t l) s) p l la o (some (o.f 27 16)) false) ∧
    (o.code = 0x05 → o.f 16 3 ≤ 5 → ¬ BranchHolds (o.f 16 3) (s.x p l (o.f 19 4)) (s.x p l (o.f 23 4)) →
      Moves s (exec (if c then .cBr t l else .ctlBr t l) s) p l la o none false) ∧
    (o.code = 0x06 → Moves s (exec (if c then .cJmp t l else .ctlJmp t l) s) p l la o (some (o.f 16 16)) false)

/-- A list whose issue runs past its program, and which no wait of its bundle holds, ends, and one more entry counts as rejected
(R189). -/
def Sys2Proof.Machine.RunOffRejects : Prop :=
  ∀ (s : State) (t l p : Nat) (la : Launch) (o : Op), Issues s t l false p la o → o.code = 0x00 → o.crec = false →
    o.slot + 1 = (o.bundleOf la).slots.length → ((s.tile p).list l).target = none → ((s.tile p).list l).ending = false →
    ((s.tile p).list l).waiting = [] → (o.bundleOf la).next ≥ progBundles false la.progRows →
    ∃ u la', exec (.nop t l) s = .next u ∧ ((u.tile p).list l).ended = true ∧ (u.tile p).launch = some la' ∧
      la'.entries = la.entries + 1 ∧ la'.rejects = la.rejects + 1 ∧ (la.first = none → la'.first.map (fun e => e.2) = some stBadParam)

/-- The control flow of a list: nop, ctl.end, ctl.br and ctl.jmp, and a list that runs past its program (R189). -/
def Obligations.SequencerFlow : Prop := SequencerMoves ∧ RunOffRejects

/-- sync.add, sync.set, and c.sadd: signal SIG takes its value modulo 2^32, DONE_SIG counts after it, and the list moves on. A
sync.set applies before what the earlier slots of its bundle have added to the signal in the same step (R164, R178). -/
def Sys2Proof.Machine.SignalChanges : Prop :=
  ∀ (s : State) (t l p : Nat) (la : Launch) (o : Op),
    (∀ c, Issues s t l c p la o → o.code = 0x11 →
      ∃ u, exec (if c then .cSadd t l else .syncAdd t l) s = .next u ∧
        (∀ e, (u.tile p).signal e = doneValue o e (if e = o.f 16 5 then ((s.tile p).signal e + o.f 21 32) % 2 ^ 32
          else (s.tile p).signal e)) ∧
        (∀ i, u.x p l i = s.x p l i) ∧ MovedOn s u p l la o none false ∧ SequencerOnly s u p l la) ∧
    (Issues s t l false p la o → o.code = 0x12 →
      ∃ u, exec (.syncSet t l) s = .next u ∧
        (∀ e, (u.tile p).signal e = doneValue o e (if e = o.f 16 5
          then (o.f 21 32 + Sparse.get 0 ((s.tile p).list l).bumps e) % 2 ^ 32 else (s.tile p).signal e)) ∧
        (∀ i, u.x p l i = s.x p l i) ∧ MovedOn s u p l la o none false ∧ SequencerOnly s u p l la)

/-- The condition of a wait for value `v` (R178). -/
def Sys2Proof.Machine.Reached (s : State) (p e v : Nat) : Prop :=
  ((s.tile p).signal e + 2 ^ 32 - v % 2 ^ 32) % 2 ^ 32 < 2 ^ 31

/-- sync.wait and c.wait hold the list with the value IMM + x(XT) modulo 2^32 to wait for. A release with no condition met
changes nothing; otherwise the wait of the lowest slot whose condition (e(SIG) - value) modulo 2^32 is below 2^31 ends (that each wait
of a bundle stands for itself, and that the lowest slot's ends, is log entry 75: DEDUCED), its own completion is its DONE_SIG and, with CREC, its entry, and the list goes on once none of its bundle waits, or ends then, with an entry of
its own, where that bundle was the last of its program (R189). -/
def Sys2Proof.Machine.WaitHoldsUntilReached : Prop :=
  (∀ (s : State) (t l p : Nat) (c : Bool) (la : Launch) (o : Op), Issues s t l c p la o → o.code = 0x10 →
    ∃ u, exec (if c then .cWait t l else .syncWait t l) s = .next u ∧
      ((u.tile p).list l).waiting =
        ((s.tile p).list l).waiting ++ [(o.slot, o.f 16 5, (o.f 25 32 + s.x p l (o.f 21 4)) % 2 ^ 32)] ∧
      (∃ f : Flight, (u.tile p).flights = (s.tile p).flights ++ [f] ∧ f.list = l ∧ f.opcode = 0x10 ∧ f.held = true ∧
        f.slot = o.slot ∧ f.doneSig = o.doneSig) ∧
      MovedOn s u p l la o none false ∧ (∀ i, u.x p l i = s.x p l i) ∧ (u.tile p).signals = (s.tile p).signals ∧
      OnlyTile s u p ∧ (u.tile p).unitState = (s.tile p).unitState ∧ OtherLists s u p l ∧ RowsKept s u p la) ∧
  (∀ (s : State) (t l p : Nat), s.phys t = some p →
    (∀ w ∈ ((s.tile p).list l).waiting, ¬ Reached s p w.2.1 w.2.2) → exec (.syncWaitRelease t l) s = .next s) ∧
  (∀ (s : State) (t l p k : Nat) (w : Nat × Nat × Nat) (f : Flight), s.phys t = some p →
    ((s.tile p).list l).waiting[k]? = some w → Reached s p w.2.1 w.2.2 →
    (∀ v ∈ ((s.tile p).list l).waiting.take k, ¬ Reached s p v.2.1 v.2.2) →
    (s.tile p).flights.find? (fun f => f.waits l w.1) = some f → f.tiles = [] → RecordClean s p →
    let x := (s.tile p).list l
    let rest := x.waiting.filter (fun v => v.1 != w.1)
    let runsOff (la : Launch) : Prop := x.slot = 0 ∧ x.ended = false ∧ rest = [] ∧ la.stopping = none ∧
      progBundles la.compat la.progRows ≤ x.pc
    ∃ u, exec (.syncWaitRelease t l) s = .next u ∧
      ((u.tile p).list l).waiting = rest ∧
      (u.tile p).flights = (s.tile p).flights.filter (fun g => !g.waits l w.1) ∧
      (∀ d, (u.tile p).signal d = if f.doneSig = some d then ((s.tile p).signal d + 1) % 2 ^ 32 else (s.tile p).signal d) ∧
      ((∀ la, (s.tile p).launch = some la → ¬ runsOff la) → ((u.tile p).list l).ended = x.ended ∧
        (f.crec = false → (u.tile p).launch = (s.tile p).launch ∧ (u.tile p).rows = (s.tile p).rows)) ∧
      (∀ la, (s.tile p).launch = some la → runsOff la → f.crec = false → ((u.tile p).list l).ended = true ∧
        ∃ la', (u.tile p).launch = some la' ∧ la'.entries = la.entries + 1 ∧ la'.rejects = la.rejects + 1) ∧
      (∀ i, u.x p l i = s.x p l i) ∧ OtherLists s u p l ∧ OnlyTile s u p ∧ (u.tile p).unitState = (s.tile p).unitState)

/-- The operations on signals: sync.add, sync.set and c.sadd, and the waits sync.wait and c.wait. -/
def Obligations.SignalOperations : Prop := SignalChanges ∧ WaitHoldsUntilReached

/-- An operation in flight reaches its completion point: its flight leaves, DONE_SIG counts once, the scalar registers that
it reads for (ctl.ld, ctl.dfind, conc.pop, conc.scan) take their values, an acc.rec writes the records it took to its row
(R153), and with CREC 0 and status OK no entry is written (R167, R169). A disp.run counts its signal once at every other tile of
its range too (R177); no other tile changes. -/
def Obligations.OperationCompletes : Prop :=
  ∀ (s : State) (t p k : Nat) (f : Flight), s.phys t = some p → (s.tile p).flights[k]? = some f →
    (s.tile p).canComplete k f = true → RecordClean s p →
    ∃ u, exec (.operationComplete t k) s = .next u ∧ (u.tile p).flights = dropAt (s.tile p).flights k ∧
      (∀ d, (u.tile p).signal d = if f.doneSig = some d then ((s.tile p).signal d + 1) % 2 ^ 32 else (s.tile p).signal d) ∧
      (f.writes = [] → ∀ l, (u.tile p).list l = (s.tile p).list l) ∧
      (∀ d v, f.writes = [(d, v)] → u.x p f.list d = (if d = 0 then 0 else v % 2 ^ 64) ∧
        ∀ i, i ≠ d → u.x p f.list i = s.x p f.list i) ∧
      (∀ d v e w, f.writes = [(d, v), (e, w)] → d ≠ e → u.x p f.list d = (if d = 0 then 0 else v % 2 ^ 64) ∧
        u.x p f.list e = (if e = 0 then 0 else w % 2 ^ 64) ∧ ∀ i, i ≠ d → i ≠ e → u.x p f.list i = s.x p f.list i) ∧
      OtherLists s u p f.list ∧
      (f.crec = false → f.status = stOk → (u.tile p).launch = (s.tile p).launch ∧
        (f.record = none → (u.tile p).rows = (s.tile p).rows) ∧
        ∀ r x, f.record = some (r, x) →
          (∀ q, q ≠ r ∨ (s.tile p).progRow r = true → Sparse.get 0 (u.tile p).rows q = Sparse.get 0 (s.tile p).rows q) ∧
          ((s.tile p).progRow r = false → Sparse.get 0 (u.tile p).rows r = x)) ∧
      (u.tile p).groups = (s.tile p).groups ∧
      (u.tile p).vregs = (s.tile p).vregs ∧ (u.tile p).windows = (s.tile p).windows ∧
      (u.tile p).queues = (s.tile p).queues ∧ u.uncounted = ({ s with tiles := u.tiles }).uncounted ∧
      ∀ q, q ≠ p → (f.tiles = [] → u.tile q = s.tile q) ∧ u.tile q = { s.tile q with signals := (u.tile q).signals } ∧
        ∀ d, (u.tile q).signal d =
          (let n := (f.tiles.filter (fun x => s.phys x == some q)).length
           if f.doneSig = some d ∧ n ≠ 0 then ((s.tile q).signal d + n) % 2 ^ 32 else (s.tile q).signal d)

/-- The phases of a ramp (R53): eight levels up, then active; from level 7 down to 0, then idle. Nothing but the ramp of
that array changes. -/
def Obligations.RampPhases : Prop :=
  ∀ (s : State) (t p a : Nat), s.phys t = some p →
    ∃ u, exec (.rampPhaseEnd t a) s = .next u ∧
      (∀ e, (s.tile p).ramp a = .up e → (u.tile p).ramp a = if e < 8 then .up (e + 1) else .active) ∧
      (∀ e, (s.tile p).ramp a = .down e → (u.tile p).ramp a = if e = 0 then .idle else .down (e - 1)) ∧
      ((s.tile p).ramp a = .idle → (u.tile p).ramp a = .idle) ∧
      ((s.tile p).ramp a = .active → (u.tile p).ramp a = .active) ∧
      (∀ b, b ≠ a → (u.tile p).ramp b = (s.tile p).ramp b) ∧
      u = { s with tiles := u.tiles } ∧ (∀ q, q ≠ p → u.tile q = s.tile q) ∧
      u.tile p = { s.tile p with ramps := (u.tile p).ramps }

/-- The end of a launch (R179, R189): once every enabled list has ended and nothing is in flight, the header row of the
completion record is written with END_STATUS, its CRC matches, the launch is gone, and groups and queues belong to no
list. -/
def Obligations.LaunchEnds : Prop :=
  ∀ (s : State) (t p : Nat) (la : Launch), s.phys t = some p → (s.tile p).launch = some la → (s.tile p).launchOver la = true →
    ∃ u, exec (.launchEnd t) s = .next u ∧ (u.tile p).launch = none ∧
      (let x := (Sparse.get 0 (u.tile p).rows la.compRow).toNat
       crcOk64 x = true ∧ fld x 0 32 = la.launchId % 2 ^ 32 ∧ fld x 32 32 = la.entries % 2 ^ 32 ∧
       fld x 64 32 = la.lost % 2 ^ 32 ∧ fld x 96 32 = la.rejects % 2 ^ 32 ∧
       fld x 152 8 = la.stopping.getD stOk % 2 ^ 8 ∧ (la.first = none → fld x 128 16 = 0xFFFF) ∧
       ∀ b st, la.first = some (b, st) → fld x 128 16 = b % 2 ^ 16 ∧ fld x 144 8 = st % 2 ^ 8) ∧
      (∀ r, r ≠ la.compRow → Sparse.get 0 (u.tile p).rows r = Sparse.get 0 (s.tile p).rows r) ∧
      (u.tile p).groups = Sparse.mapVals Group.reset (s.tile p).groups (fun g => { g with owner := none }) ∧
      (∀ q, ((u.tile p).queue q).owner = none) ∧ (u.tile p).signals = (s.tile p).signals ∧
      (u.tile p).vregs = (s.tile p).vregs ∧ ∀ q, q ≠ p → u.tile q = s.tile q

/-! ### The vector engine -/

/-- Answers next with register VD holding the elements `x e`, every other register as before; the operation has entered the
vector engine's queue; scalar registers, the tile's other units and everything outside the tile are as before. -/
def Sys2Proof.Machine.VecWrites (s : State) (r : Result) (p l : Nat) (la : Launch) (o : Op) (x : Nat → Nat) : Prop :=
  ∃ u, r = .next u ∧
    (∀ e, e < typeElems o.vtype → elem (typeBits o.vtype) ((u.tile p).vreg o.vd) e = x e % 2 ^ typeBits o.vtype) ∧
    (∀ v, v ≠ o.vd → (u.tile p).vreg v = (s.tile p).vreg v) ∧ Entered s u p l la o [.vec] [] ∧
    (∀ i, u.x p l i = s.x p l i) ∧ OnlyTile s u p ∧ RowsKept s u p la ∧
    ({ u.tile p with vregs := [] } : Tile).unitState = ({ s.tile p with vregs := [] } : Tile).unitState

/-- Element `e` of vector register `v` in the TYPE of `o`. -/
def Sys2Proof.Machine.Op.el (o : Op) (s : State) (p v e : Nat) : Nat := elem (typeBits o.vtype) ((s.tile p).vreg v) e

/-- The element-wise operations (Table 08-10, R182, R437), native and compatibility. FX64 (TYPE 1) adds and subtracts modulo
2^64 and compares as signed integers; FP32 and BF16 round once to nearest even, BF16 through FP32. -/
def Sys2Proof.Machine.VectorPointwise : Prop :=
  ∀ (s : State) (t l p : Nat) (c : Bool) (la : Launch) (o : Op), Issues s t l c p la o →
    let a (e : Nat) := o.el s p o.va e
    let b (e : Nat) := o.el s p o.vb e
    let d (e : Nat) := o.el s p o.vd e
    let v := typeVal o.vtype
    (o.code = 0x42 → VecWrites s (exec (if c then .cVec t l else .vecAdd t l) s) p l la o
      (fun e => if o.vtype = 1 then a e + b e else typeRound o.vtype (Val.add (v (a e)) (v (b e))))) ∧
    (o.code = 0x43 → VecWrites s (exec (if c then .cVec t l else .vecSub t l) s) p l la o
      (fun e => if o.vtype = 1 then a e + 2 ^ 64 - b e else typeRound o.vtype (Val.add (v (a e)) (v (b e)).neg))) ∧
    (o.code = 0x44 → VecWrites s (exec (if c then .cVec t l else .vecMul t l) s) p l la o
      (fun e => typeRound o.vtype (Val.mul (v (a e)) (v (b e))))) ∧
    (o.code = 0x45 → VecWrites s (exec (if c then .cVec t l else .vecFma t l) s) p l la o
      (fun e => typeRound o.vtype (Val.add (Val.mul (v (a e)) (v (b e))) (v (d e))))) ∧
    (o.code = 0x46 → VecWrites s (exec (if c then .cVec t l else .vecMax t l) s) p l la o
      (fun e => if o.vtype = 1 then (if signed 64 (a e) ≥ signed 64 (b e) then a e else b e)
        else floatMax (typeFmt o.vtype) (a e) (b e))) ∧
    (o.code = 0x47 → VecWrites s (exec (if c then .cVec t l else .vecMin t l) s) p l la o
      (fun e => if o.vtype = 1 then (if signed 64 (a e) ≤ signed 64 (b e) then a e else b e)
        else floatMin (typeFmt o.vtype) (a e) (b e))) ∧
    (o.code = 0x49 → VecWrites s (exec (if c then .cVec t l else .vecSel t l) s) p l la o
      (fun e => if o.el s p (o.f 33 5) e ≠ 0 then a e else b e))

/-- vec.cmp: all ones where COND holds, else 0; a NaN operand meets ne and nothing else (R437). -/
def Sys2Proof.Machine.VectorCompare : Prop :=
  ∀ (s : State) (t l p : Nat) (c : Bool) (la : Launch) (o : Op), Issues s t l c p la o → o.code = 0x48 →
    ∃ u, exec (if c then .cVec t l else .vecCmp t l) s = .next u ∧ Entered s u p l la o [.vec] [] ∧ OnlyTile s u p ∧
      (∀ w, w ≠ o.vd → (u.tile p).vreg w = (s.tile p).vreg w) ∧ (∀ i, u.x p l i = s.x p l i) ∧ RowsKept s u p la ∧
      ({ u.tile p with vregs := [] } : Tile).unitState = ({ s.tile p with vregs := [] } : Tile).unitState ∧
      ∀ e, e < typeElems o.vtype →
        let a := o.el s p o.va e
        let b := o.el s p o.vb e
        let r := elem (typeBits o.vtype) ((u.tile p).vreg o.vd) e
        let holds : Option Int → Prop := fun d => match d with
          | none => o.f 33 3 = 1
          | some d => (o.f 33 3 = 0 ∧ d = 0) ∨ (o.f 33 3 = 1 ∧ d ≠ 0) ∨ (o.f 33 3 = 2 ∧ d < 0) ∨ (o.f 33 3 = 3 ∧ d ≤ 0) ∨
              (o.f 33 3 = 4 ∧ d > 0) ∨ (o.f 33 3 = 5 ∧ d ≥ 0)
        o.f 33 3 ≤ 5 →
        let d := if o.vtype = 1 then some (signed 64 a - signed 64 b) else Val.cmp (typeVal o.vtype a) (typeVal o.vtype b)
        (holds d → r = 2 ^ typeBits o.vtype - 1) ∧ (¬ holds d → r = 0)

/-- The element-wise operations and the comparison. -/
def Obligations.VectorElementwise : Prop := VectorPointwise ∧ VectorCompare

/-- vec.cmask (R184): element e of VD is the score of query x(XQ) + (e div 32) and key x(XK) + (e mod 32); an element whose
key exceeds its query becomes minus infinity, and every other element stands. -/
def Obligations.CausalMask : Prop :=
  ∀ (s : State) (t l p : Nat) (la : Launch) (o : Op), Issues s t l false p la o → o.code = 0x50 →
    (o.vtype = 0 ∨ o.vtype = 2) →
    VecWrites s (exec (.vecCmask t l) s) p l la o (fun e =>
      if s.x p l (o.f 37 4) + e % 32 > s.x p l (o.f 33 4) + e / 32 then (if o.vtype = 0 then 0xFF800000 else 0xFF80)
      else o.el s p o.vd e)

/-- The operations of one source and the reductions (R182, R183), native and compatibility. -/
def Obligations.VectorUnary : Prop :=
  ∀ (s : State) (t l p : Nat) (c : Bool) (la : Launch) (o : Op), Issues s t l c p la o → o.vtype ≤ 2 →
    let a (e : Nat) := o.el s p o.va e
    let f (g : Val → Nat) (e : Nat) :=
      if o.vtype = 2 then toBf16 (f32Val (g (typeVal o.vtype (a e)))) else g (typeVal o.vtype (a e))
    (o.code = 0x4A → VecWrites s (exec (if c then .cVec t l else .vecExp t l) s) p l la o (f expF32)) ∧
    (o.code = 0x4B → VecWrites s (exec (if c then .cVec t l else .vecRcp t l) s) p l la o (f rcpF32)) ∧
    (o.code = 0x4C → VecWrites s (exec (if c then .cVec t l else .vecRsq t l) s) p l la o (f rsqF32)) ∧
    (o.code = 0x4D → VecWrites s (exec (if c then .cVec t l else .vecRsum t l) s) p l la o
      (fun e => if e = 0 then vSum o.vtype (tabulate (typeElems o.vtype) a) % 2 ^ typeBits o.vtype else 0)) ∧
    (o.code = 0x4E → VecWrites s (exec (if c then .cVec t l else .vecRmax t l) s) p l la o
      (fun e => if e = 0 then vMaxAll o.vtype (tabulate (typeElems o.vtype) a) % 2 ^ typeBits o.vtype else 0)) ∧
    (o.code = 0x4F → o.f 33 8 < typeElems o.vtype →
      VecWrites s (exec (if c then .cVec t l else .vecBcast t l) s) p l la o (fun _ => a (o.f 33 8)))

/-- vec.ld and vec.st, native and compatibility: a row as the checked path reads it, and a row written whole unless it is a
program row, which drops the write and counts it (R163, R181, R203). -/
def Obligations.VectorRows : Prop :=
  ∀ (s : State) (t l p r : Nat) (c : Bool) (la : Launch) (o : Op), Issues s t l c p la o → o.ix 33 16 = some r →
    rowExists r = true →
    (o.code = 0x40 → ∃ u, exec (if c then .cVec t l else .vecLd t l) s = .next u ∧
      (u.tile p).vreg o.vd = (readRow s p r).2.toNat ∧ (∀ w, w ≠ o.vd → (u.tile p).vreg w = (s.tile p).vreg w) ∧
      Entered s u p l la o [.vec] [] ∧ (∀ i, u.x p l i = s.x p l i) ∧
      ({ u.tile p with vregs := [] } : Tile).unitState = ({ s.tile p with vregs := [] } : Tile).unitState ∧
      ((s.tile p).cleanAt r = true → OnlyTile s u p ∧ RowsKept s u p la)) ∧
    (o.code = 0x41 → ∃ u, exec (if c then .cVec t l else .vecSt t l) s = .next u ∧ Entered s u p l la o [.vec] [] ∧
      OnlyTile s u p ∧ (u.tile p).unitState = (s.tile p).unitState ∧ (∀ i, u.x p l i = s.x p l i) ∧
      (∀ q, ¬ (la.compRow ≤ q ∧ q < la.compRow + la.compRows) → Sparse.get 0 (u.tile p).rows q =
        if q = r ∧ (s.tile p).progRow r = false then row ((s.tile p).vreg o.va) else Sparse.get 0 (s.tile p).rows q))

/-- The result of vec.cvt for source element `e` (R76, R438, Table 03-9): the FX64 integer moved to ANCHOR_OUT for OUTFMT 0xA,
else the value converted to OUTFMT under ROUND, stochastic rounding with the word of logical element x(XI) + e. -/
def Sys2Proof.Machine.Op.cvt (o : Op) (s : State) (p l e : Nat) : Nat :=
  let fmt := o.f 33 4
  let word := if o.f 37 2 = 2 then
      chacha8 s.rng.key (drawCounter (o.f 75 32) ((s.x p l (o.f 71 4) + e) % 2 ^ 64) (o.f 107 32)) % 2 ^ 32
    else 0
  if fmt = 10 then (realign (o.el s p o.va e) (signed 16 (o.f 39 16)) (signed 16 (o.f 55 16))).1
  else (convert fmt (o.f 37 2) word
    (accVal (if o.vtype = 1 then 2 else if o.vtype = 2 then 0 else 1) (o.el s p o.va e) (signed 16 (o.f 39 16)))).bits

/-- A tile's units without what a vector operation that draws changes: vector registers, random buffers, draw cursors and the
references that a restore set. -/
def Sys2Proof.Machine.Tile.unitsButDraws (t : Tile) : Tile :=
  ({ t with
    vregs := []
    rngTag := []
    rngNext := []
    cursors := []
    refs := [] } : Tile).unitState

/-- vec.cvt and vec.rand. A conversion to elements of the source's size converts every element in place; a widening one the
elements of its part of the source; a narrowing one all of them into its part of VD, whose other bytes stand (R438). vec.rand:
lane l takes bytes 7:0 of the block at counter (RNG_STREAM, x(XI) + l, RNG_DRAW) under the key in force (R252). Draw cursors and
random buffers may change; every other unit, register and row stands. -/
def Obligations.VectorConvertAndDraw : Prop :=
  ∀ (s : State) (t l p : Nat) (la : Launch) (o : Op), Issues s t l false p la o →
    (o.code = 0x51 → o.vtype ≤ 2 → o.f 37 2 ≤ 2 → isOutputFmt (o.f 33 4) = true →
      let ei := typeBytes o.vtype
      let eo := fmtBytes (o.f 33 4)
      let part := o.f 139 3
      ∃ u, exec (.vecCvt t l) s = .next u ∧ Entered s u p l la o [.vec] [] ∧ OnlyTile s u p ∧ RowsKept s u p la ∧
        (∀ i, u.x p l i = s.x p l i) ∧ (∀ w, w ≠ o.vd → (u.tile p).vreg w = (s.tile p).vreg w) ∧
        (u.tile p).unitsButDraws = (s.tile p).unitsButDraws ∧
        (eo = ei → ∀ e, e < 512 / ei → elem (8 * eo) ((u.tile p).vreg o.vd) e = o.cvt s p l e % 2 ^ (8 * eo)) ∧
        (ei < eo → part < eo / ei → ∀ i, i < 512 / eo →
          elem (8 * eo) ((u.tile p).vreg o.vd) i = o.cvt s p l (part * (512 / eo) + i) % 2 ^ (8 * eo)) ∧
        (eo < ei → part < ei / eo →
          (∀ e, e < 512 / ei →
            elem (8 * eo) ((u.tile p).vreg o.vd) (part * (512 / ei) + e) = o.cvt s p l e % 2 ^ (8 * eo)) ∧
          ∀ i, i < 512 → ¬ (part * (512 / ei) * eo ≤ i ∧ i < (part + 1) * (512 / ei) * eo) →
            elem 8 ((u.tile p).vreg o.vd) i = elem 8 ((s.tile p).vreg o.vd) i)) ∧
    (o.code = 0x52 →
      ∃ u, exec (.vecRand t l) s = .next u ∧ Entered s u p l la o [.vec] [] ∧ OnlyTile s u p ∧ RowsKept s u p la ∧
        (∀ i, u.x p l i = s.x p l i) ∧ (∀ w, w ≠ o.vd → (u.tile p).vreg w = (s.tile p).vreg w) ∧
        (u.tile p).unitsButDraws = (s.tile p).unitsButDraws ∧
        ∀ i, i < 64 → elem 64 ((u.tile p).vreg o.vd) i =
          chacha8 s.rng.key (drawCounter (o.f 37 32) ((s.x p l (o.f 33 4) + i) % 2 ^ 64) (o.f 69 32)) % 2 ^ 64)

/-- vec.join to rows (DSTG 0): each destination row becomes the element sums with its source row, when the two extents lie in
their regions, do not meet each other, the program or the completion record, and no cell of them is faulty. -/
def Sys2Proof.Machine.JoinsRows : Prop :=
  ∀ (s : State) (t l p src dst : Nat) (la : Launch) (o : Op), Issues s t l false p la o → o.code = 0x53 → o.vtype ≤ 1 →
    let n := o.f 49 16
    o.ix 33 16 = some src → bit o.bits 97 = false → o.ix 98 16 = some dst → (o.vtype = 1 → o.f 65 16 = o.f 81 16) →
    rowRoom src ≠ 0 → n ≤ rowRoom src → rowRoom dst ≠ 0 → n ≤ rowRoom dst → extentsMeet src n 1 dst n 1 = false →
    extentsMeet dst n 1 la.progBase la.progRows 1 = false → extentsMeet dst n 1 la.compRow la.compRows 1 = false →
    CleanRows s p src n → CleanRows s p dst n →
    ∃ u, exec (.vecJoin t l) s = .next u ∧ Entered s u p l la o [.vec] [] ∧ OnlyTile s u p ∧
      (u.tile p).unitState = (s.tile p).unitState ∧ (∀ i, u.x p l i = s.x p l i) ∧
      (∀ i, i < n → Sparse.get 0 (u.tile p).rows (dst + i) =
        row (joinRow o.vtype (readRow s p (dst + i)).2.toNat (readRow s p (src + i)).2.toNat)) ∧
      (∀ r, ¬ (dst ≤ r ∧ r < dst + n) → ¬ (la.compRow ≤ r ∧ r < la.compRow + la.compRows) →
        Sparse.get 0 (u.tile p).rows r = Sparse.get 0 (s.tile p).rows r)

/-- vec.join to a group (DSTG 1): partial k of the source rows is added to the group's element k places after the first of
group row GROW, row-major, the group's other elements stand, and the group belongs to the list (R148, R185, R188). -/
def Sys2Proof.Machine.JoinsGroup : Prop :=
  ∀ (s : State) (t l p src grow : Nat) (la : Launch) (o : Op), Issues s t l false p la o → o.code = 0x53 → o.vtype ≤ 1 →
    let n := o.f 49 16
    let a := o.f 114 2
    let g := (s.tile p).group a (o.f 116 5)
    let el (x : State) (j : Nat) := elem (8 * accBytes g.fmt) (readRows x p (accRow a g.base) g.rows).2 j
    let part (k : Nat) := elem (typeBits o.vtype) (readRows s p src n).2 k
    o.ix 33 16 = some src → bit o.bits 97 = true → o.ix 121 15 = some grow →
    g.isOpen = true → (g.owner = none ∨ g.owner = some l) → g.fmt = (if o.vtype = 1 then 2 else 1) →
    (o.vtype = 1 → o.f 65 16 = o.f 81 16 ∧ signed 16 (o.f 65 16) = g.anchor) → 0 < g.gcols →
    grow * g.gcols + n * typeElems o.vtype ≤ g.grows * g.gcols → g.base + g.rows ≤ 512 → rowRoom src ≠ 0 →
    n ≤ rowRoom src → extentsMeet src n 1 (accRow a g.base) g.rows 1 = false →
    la.progBase + la.progRows ≤ 0x6000 → la.compRow + la.compRows ≤ 0x6000 →
    CleanRows s p src n → CleanRows s p (accRow a g.base) g.rows →
    ∃ u, exec (.vecJoin t l) s = .next u ∧ Entered s u p l la o [.vec] [] ∧ OnlyTile s u p ∧
      (u.tile p).group a (o.f 116 5) = { g with owner := some l } ∧
      (∀ b h, groupKey b h ≠ groupKey a (o.f 116 5) → (u.tile p).group b h = (s.tile p).group b h) ∧
      ({ u.tile p with groups := [] } : Tile).unitState = ({ s.tile p with groups := [] } : Tile).unitState ∧
      (∀ i, u.x p l i = s.x p l i) ∧
      (∀ k, k < n * typeElems o.vtype →
        el u (grow * g.gcols + k) = contribute g.fmt (el s (grow * g.gcols + k)) (part k) % 2 ^ (8 * accBytes g.fmt)) ∧
      (∀ j, j < g.grows * g.gcols → ¬ (grow * g.gcols ≤ j ∧ j < grow * g.gcols + n * typeElems o.vtype) → el u j = el s j) ∧
      ∀ r, ¬ (accRow a g.base ≤ r ∧ r < accRow a g.base + g.rows) → ¬ (la.compRow ≤ r ∧ r < la.compRow + la.compRows) →
        Sparse.get 0 (u.tile p).rows r = Sparse.get 0 (s.tile p).rows r

/-- vec.join of FX64 partials whose anchors differ, or differ from its group's, is rejected with BAD_PARAM, and
ctr.acc.anchor_mismatch increments (R185). Registers, rows and units stand, but that an open group it names which belonged to no
list now belongs to this one (log entry 82). -/
def Sys2Proof.Machine.JoinMismatch : Prop :=
  ∀ (s : State) (t l p src : Nat) (la : Launch) (o : Op), Issues s t l false p la o → o.code = 0x53 → o.vtype = 1 →
    o.ix 33 16 = some src → s.boot.phase = 5 → s.counter 0x0A02 p < 2 ^ 48 - 1 →
    let a := o.f 114 2
    let g := (s.tile p).group a (o.f 116 5)
    (o.f 65 16 ≠ o.f 81 16 ∨
      (bit o.bits 97 = true ∧ (∃ grow, o.ix 121 15 = some grow) ∧ rowRoom src ≠ 0 ∧ o.f 49 16 ≤ rowRoom src ∧
        g.isOpen = true ∧ (g.owner = none ∨ g.owner = some l) ∧ g.fmt = 2 ∧ signed 16 (o.f 65 16) ≠ g.anchor)) →
    ∃ u, exec (.vecJoin t l) s = .next u ∧ Rejected s u p l la o stBadParam 0 ∧
      u.counter 0x0A02 p = s.counter 0x0A02 p + 1 ∧ (∀ i, u.x p l i = s.x p l i) ∧
      (∀ b h, groupKey b h ≠ groupKey a (o.f 116 5) → (u.tile p).group b h = (s.tile p).group b h) ∧
      (u.tile p).group a (o.f 116 5) =
        (if bit o.bits 97 = true ∧ g.isOpen = true ∧ g.owner = none then { g with owner := some l } else g) ∧
      ({ u.tile p with groups := [] } : Tile).unitState = ({ s.tile p with groups := [] } : Tile).unitState

/-- vec.join: to rows, to a group, and its rejection for anchors that differ. -/
def Obligations.VectorJoin : Prop := JoinsRows ∧ JoinsGroup ∧ JoinMismatch

/-! ### Groups -/

/-- acc.open of a group that passes R145: the group is open with the fields of the block, POSITIONS 0, and it belongs to the
list. With ACC_MODE 0 its rows read as zero, or repeat the bias of each column (R146, R147); with ACC_MODE 1 they keep their
contents. -/
def Sys2Proof.Machine.GroupOpensClean : Prop :=
  ∀ (s : State) (t l p : Nat) (la : Launch) (o : Op), Issues s t l false p la o → o.code = 0x28 →
    let f := o.group 111
    let a := o.f 16 2
    let rows := groupRows f.grows f.gcols f.fmt
    openCheck (s.tile p) a f none = 0 → la.progBase + la.progRows ≤ 0x6000 → la.compRow + la.compRows ≤ 0x6000 →
    (f.mode = false → CleanRows s p (accRow a f.base) rows) →
    (∀ r, f.bias = true → f.biasRow = some r → CleanRows s p r (cdiv (f.gcols * accBytes f.fmt) 512)) →
    (∀ r, f.fmt = 2 → f.src = 2 → f.anchorRow = some r → (s.tile p).cleanAt r = true) →
    ∃ u, exec (.accOpen t l) s = .next u ∧
      (let g := (u.tile p).group a f.gid
       g.isOpen = true ∧ g.mode = f.mode ∧ g.fmt = f.fmt ∧ g.base = f.base ∧ g.grows = f.grows ∧ g.gcols = f.gcols ∧
       g.positions = 0 ∧ g.owner = some l ∧ (f.fmt = 2 → f.src = 1 → g.anchor = f.anchor) ∧
       (f.fmt = 2 → f.src = 2 → ∀ r, f.anchorRow = some r → g.anchor = signed 16 (fld (readRow s p r).2.toNat 0 16))) ∧
      (∀ b h, groupKey b h ≠ groupKey a f.gid → (u.tile p).group b h = (s.tile p).group b h) ∧
      (f.mode = false → f.bias = false → ∀ i, i < rows → (readRow u p (accRow a (f.base + i))).2 = 0) ∧
      (f.mode = false → f.bias = true → ∀ r, f.biasRow = some r → ∀ i j, i < f.grows → j < f.gcols →
        let w := 8 * accBytes f.fmt
        elem w (natOfRows ((List.range rows).map (fun k => (readRow u p (accRow a (f.base + k))).2))) (i * f.gcols + j) =
          elem w (readRows s p r (cdiv (f.gcols * accBytes f.fmt) 512)).2 j) ∧
      (∀ r, (f.mode = true ∨ ¬ (accRow a f.base ≤ r ∧ r < accRow a (f.base + rows))) →
        ¬ (la.compRow ≤ r ∧ r < la.compRow + la.compRows) →
        Sparse.get 0 (u.tile p).rows r = Sparse.get 0 (s.tile p).rows r) ∧
      Entered s u p l la o [.arr a] [] ∧ OnlyTile s u p

/-- An open that a check of R145 refuses is rejected with that check's status and number, ctr.acc.reject counts, and no group
changes but that an open group of that number which belongs to no list now belongs to this one (log entry 82: DEDUCED). -/
def Sys2Proof.Machine.GroupOpenRefused : Prop :=
  ∀ (s : State) (t l p : Nat) (la : Launch) (o : Op), Issues s t l false p la o → o.code = 0x28 →
    let a := o.f 16 2
    let f := o.group 111
    let g := (s.tile p).group a f.gid
    let check := openCheck (s.tile p) a f none
    check ≠ 0 → s.boot.phase = 5 → s.counter 0x0A01 p < 2 ^ 48 - 1 →
    ∃ u, exec (.accOpen t l) s = .next u ∧ Rejected s u p l la o (checkStatus check) check ∧
      u.counter 0x0A01 p = s.counter 0x0A01 p + 1 ∧
      (u.tile p).group a f.gid = (if g.isOpen = true ∧ g.owner = none then { g with owner := some l } else g) ∧
      ∀ b h, groupKey b h ≠ groupKey a f.gid → (u.tile p).group b h = (s.tile p).group b h

/-- acc.open: the group that passes R145, and the refusal of one that does not. -/
def Obligations.GroupOpens : Prop := GroupOpensClean ∧ GroupOpenRefused

/-- acc.close of an open group of this list or of none: the group is free in the state after the issue, its operation still in
flight (log entry 75), the output rows hold the converted elements
row-major, or the FX64 integers for OUTFMT 0xA, and every other row keeps its contents. Stochastic rounding draws the block
of logical index x14 + row * pitch + column, the pitch being x15, or GCOLS when x15 is 0 (R155, R256, R257). -/
def Obligations.GroupCloses : Prop :=
  ∀ (s : State) (t l p out : Nat) (la : Launch) (o : Op), Issues s t l false p la o → o.code = 0x29 →
    let a := o.f 16 2
    let g := (s.tile p).group a (o.f 18 5)
    let fmt := o.f 23 4
    let n := g.grows * g.gcols
    let rows := cdiv (n * fmtBytes fmt) 512
    let x15 := s.x p l 15
    let pitch := if x15 = 0 then g.gcols else x15
    let word (i : Nat) := if o.f 27 2 = 2 then
        chacha8 s.rng.key (drawCounter (o.f 45 32) ((s.x p l 14 + i / g.gcols * pitch + i % g.gcols) % 2 ^ 64) (o.f 77 32))
          % 2 ^ 32
      else 0
    g.isOpen = true → (g.owner = none ∨ g.owner = some l) → o.f 27 2 ≤ 2 → (x15 = 0 ∨ g.gcols ≤ x15) →
    closeFmtOk g.fmt fmt = true → o.ix 29 16 = some out → out < 0x6000 → out + rows ≤ 0x6000 →
    extentsMeet out rows 1 la.progBase la.progRows 1 = false → extentsMeet out rows 1 la.compRow la.compRows 1 = false →
    CleanRows s p (accRow a g.base) g.rows →
    ∃ u, exec (.accClose t l) s = .next u ∧ (u.tile p).group a (o.f 18 5) = Group.reset ∧
      (∀ i, i < n →
        let y := elem (8 * accBytes g.fmt) (readRows s p (accRow a g.base) g.rows).2 i
        elem (fmtBits fmt) (natOfRows ((List.range rows).map (fun k => Sparse.get 0 (u.tile p).rows (out + k)))) i =
          if fmt = 10 then elem 64 (readRows s p (accRow a g.base) g.rows).2 i
          else (convert fmt (o.f 27 2) (word i) (accVal g.fmt y g.anchor)).bits % 2 ^ fmtBits fmt) ∧
      (∀ r, ¬ (out ≤ r ∧ r < out + rows) → ¬ (la.compRow ≤ r ∧ r < la.compRow + la.compRows) →
        Sparse.get 0 (u.tile p).rows r = Sparse.get 0 (s.tile p).rows r) ∧
      Entered s u p l la o [.close a] [] ∧ OnlyTile s u p

/-- acc.rec enters its array's close unit behind the operations before it, with its row and the 32 group records as those operations
leave them, an acc.close behind it not counted; it writes them when it completes. acc.adopt opens a group again from such a
record: format, rows, columns, anchor and POSITIONS as recorded, at its own base, in accumulate mode (R153). -/
def Obligations.RecordsAndAdoption : Prop :=
  (∀ (s : State) (t l p r : Nat) (la : Launch) (o : Op), Issues s t l false p la o → o.code = 0x2A → o.ix 18 16 = some r →
    rowExists r = true →
    ∃ u, exec (.accRec t l) s = .next u ∧ Entered s u p l la o [.close (o.f 16 2)] [] ∧
      LastFlight u p (fun f => (∃ x, f.record = some (r, x) ∧
          ∀ g, g < 32 → elem 128 x.toNat g = groupRecord ((s.tile p).group (o.f 16 2) g) % 2 ^ 128) ∧
        ∀ g ∈ (s.tile p).flights, g.units.contains (.arr (o.f 16 2)) = true → f.after g = true) ∧
      OnlyTile s u p ∧ RowsKept s u p la ∧ (∀ i, u.x p l i = s.x p l i) ∧ (u.tile p).unitState = (s.tile p).unitState) ∧
  (∀ (s : State) (t l p r : Nat) (la : Launch) (o : Op) (f : GroupF) (anchor : Int) (pos : Nat),
    Issues s t l false p la o → o.code = 0x2B → o.ix 23 16 = some r → rowExists r = true →
    (s.tile p).cleanAt r = true →
    adoptFields (o.f 18 5) (o.f 44 9) (elem 128 (readRow s p r).2.toNat (o.f 39 5)) = some (f, anchor, pos) →
    openCheck (s.tile p) (o.f 16 2) f none = 0 →
    ∃ u, exec (.accAdopt t l) s = .next u ∧ Entered s u p l la o [.arr (o.f 16 2)] [] ∧ OnlyTile s u p ∧
      RowsKept s u p la ∧
      (let g := (u.tile p).group (o.f 16 2) (o.f 18 5)
       let x := elem 128 (readRow s p r).2.toNat (o.f 39 5)
       g.isOpen = true ∧ g.mode = true ∧ g.fmt = fld x 2 2 ∧ g.base = o.f 44 9 ∧ g.grows = fld x 16 15 ∧
       g.gcols = fld x 32 10 ∧ g.positions = fld x 96 32 ∧ g.owner = some l ∧
       (g.fmt = 2 → g.anchor = signed 16 (fld x 48 16))) ∧
      ∀ b h, groupKey b h ≠ groupKey (o.f 16 2) (o.f 18 5) → (u.tile p).group b h = (s.tile p).group b h)

/-! ### Products -/

/-- arr.mm adding its product to open groups (R37, R148, R151, R172): element (m, n) of each named array's group takes the column
sums of its weight tiles one after another, in ascending K; the group's other elements stand, POSITIONS advances by K, and
the group belongs to the list. -/
def Sys2Proof.Machine.DenseProductAdds : Prop :=
  ∀ (s : State) (t l p act wt off : Nat) (la : Launch) (o : Op), Issues s t l false p la o → o.code = 0x20 →
    let arrays := setBits 4 (o.f 16 4)
    let f := o.group 111
    let ca := o.f 22 4
    let cw := o.f 26 4
    let m := o.f 30 15
    let k := o.f 45 24
    let n := o.f 69 10
    let wr := denseRows cw n k + denseScaleRows cw n k
    let depth := tileDepth cw
    (opArrMm p o s).status = stOk → o.ix 79 16 = some act → o.ix 95 16 = some wt → f.rowOff = some off → f.opens = false →
    CleanRows s p act (denseRows ca m k + denseScaleRows ca m k) → CleanRows s p wt (arrays.length * wr) →
    (∀ a ∈ arrays, CleanRows s p (accRow a ((s.tile p).group a f.gid).base) ((s.tile p).group a f.gid).rows) →
    la.progBase + la.progRows ≤ 0x6000 → la.compRow + la.compRows ≤ 0x6000 →
    (∀ a ∈ arrays, let g := (s.tile p).group a f.gid
      g.base + g.rows ≤ 512 ∧ g.fmt ≤ 2 ∧ 0 < s.width p a) →
    ∃ u, exec (.arrMm t l) s = .next u ∧ Entered s u p l la o (arrays.map TileUnit.arr) [] ∧
      OnlyTile { s with free := u.free } u p ∧
      (∀ i a, arrays[i]? = some a →
        let g := (s.tile p).group a f.gid
        let el (x : State) (j : Nat) := elem (8 * accBytes g.fmt) (readRows x p (accRow a g.base) g.rows).2 j
        let x := (s.readDense p act ca m k).2
        let w := (s.readDense p (wt + i * wr) cw n k).2
        (u.tile p).group a f.gid = { g with owner := some l, positions := min (g.positions + k) (2 ^ 32 - 1) } ∧
        (∀ mm nn, mm < m → nn < n → el u ((off + mm) * g.gcols + (f.colOff + nn)) =
          (List.range (cdiv k depth)).foldl (fun acc kt =>
            contribute g.fmt acc (tileSum x w g.fmt g.anchor mm nn (kt * depth) (min depth (k - kt * depth))).1)
            (el s ((off + mm) * g.gcols + (f.colOff + nn)))) ∧
        ∀ j, j < g.grows * g.gcols →
          (∀ mm nn, mm < m → nn < n → j ≠ (off + mm) * g.gcols + (f.colOff + nn)) → el u j = el s j) ∧
      ∀ b h, (b ∉ arrays ∨ h ≠ f.gid) → b < 4 → h < 32 → (u.tile p).group b h = (s.tile p).group b h

/-- arr.mm and sp.mm, whenever every check of R92, R145, R149, R173 and R176 passes: the operation enters the queue of every
array it occupies, the other lists and the signals are left alone, and what is outside the tile's own rows, groups and
counts is as its operand reads left it. -/
def Sys2Proof.Machine.ProductsEnter : Prop :=
  ∀ (s : State) (t l p : Nat) (la : Launch) (o : Op), Issues s t l false p la o →
    (o.code = 0x20 → (opArrMm p o s).status = stOk →
      ∃ u, exec (.arrMm t l) s = .next u ∧ Entered s u p l la o ((setBits 4 (o.f 16 4)).map TileUnit.arr) [] ∧
        u.mem = s.mem ∧ u.cur = s.cur ∧ u.set = s.set ∧ (∀ q, q ≠ p → u.tile q = s.tile q) ∧
        (u.tile p).vregs = (s.tile p).vregs ∧ (u.tile p).windows = (s.tile p).windows ∧ (∀ i, u.x p l i = s.x p l i)) ∧
    (o.code = 0x21 → (opSpMm p o s).status = stOk →
      ∃ u, exec (.spMm t l) s = .next u ∧ Entered s u p l la o (spUnits s p o) [] ∧
        u.set = s.set ∧ (u.tile p).vregs = (s.tile p).vregs ∧
        (u.tile p).windows = (s.tile p).windows ∧ (∀ i, u.x p l i = s.x p l i))

/-- What sp.mm leaves alone where every operand reads clean, in every form (R109, R149, R155, R176): the rows of its tile outside
the named groups' rows, the output rows of a dense close, the regions of a sparse output, the mask of a predictor and the
completion record; every other group; every other tile; and memory outside the regions of a sparse output. -/
def Sys2Proof.Machine.SparseProductFrame : Prop :=
  ∀ (s e : State) (t l p : Nat) (la : Launch) (o : Op) (q : SpReady), Issues s t l false p la o → o.code = 0x21 →
    let f := o.spF
    (s.nameGroups p o.list f.arrays f.g.gid).spCheck p o f = (e, .ok q) → (opSpMm p o s).status = stOk → Faultless s → PortsFit s →
    let regions := match q.c with
      | some c => c.regions
      | none => []
    let place (a : Nat) : Nat × Nat := if f.g.opens then (f.g.base, groupRows f.g.grows f.g.gcols f.g.fmt)
      else (((s.tile p).group a f.g.gid).base, ((s.tile p).group a f.g.gid).rows)
    let out (a : Nat) : Nat :=
      let (gr, gc, _) := groupShape (s.tile p) a f.g
      cdiv (gr * gc * fmtBytes f.outfmt) 512
    let first := f.outRow.getD 0
    let written (r : Nat) : Prop :=
      (∃ a ∈ f.arrays, accRow a (place a).1 ≤ r ∧ r < accRow a ((place a).1 + (place a).2)) ∨
      (f.close = true ∧ q.c = none ∧ ∃ i a, f.arrays[i]? = some a ∧ first + i * out a ≤ r ∧ r < first + i * out a + out a) ∨
      InRegions regions (.scr (s.ent p).logical r) ∨
      (∃ d, q.pred = some d ∧ d.maskRow ≤ r ∧ r < d.maskRow + maskRows q.a.odim q.b.odim) ∨
      (la.compRow ≤ r ∧ r < la.compRow + la.compRows)
    ∃ u, exec (.spMm t l) s = .next u ∧
      u.uncounted = ({ s with tiles := u.tiles, mem := u.mem, free := u.free }).uncounted ∧
      (∀ r, r ≠ p → u.tile r = s.tile r) ∧ MemKept s u regions ∧
      (∀ r, ¬ written r → Sparse.get 0 (u.tile p).rows r = Sparse.get 0 (s.tile p).rows r) ∧
      (∀ b h, (b ∉ f.arrays ∨ h ≠ f.g.gid) → b < 4 → h < 32 → (u.tile p).group b h = (s.tile p).group b h) ∧
      (u.tile p).queues = (s.tile p).queues ∧ (u.tile p).accounts = (s.tile p).accounts ∧
      (u.tile p).otiles = (s.tile p).otiles

/-- sp.mm of a sparse activation and dense weights in wide-shallow form on one array, added to an open group (R47, R48, R104, R105):
element (m, n) takes the column sums of the weights' chunks one after another, in ascending K, each over the K-blocks of the chunk
that the activation's line has, in ascending K; a chunk of which it has none is passed over. The group's other elements stand, and
POSITIONS advances by K. -/
def Sys2Proof.Machine.SparseProductAdds : Prop :=
  ∀ (s : State) (t l p a wt off x : Nat) (la : Launch) (o : Op), Issues s t l false p la o → o.code = 0x21 →
    let f := o.spF
    let ta := tensorOf x
    let cw := o.f 65 4
    let (m, k) := (ta.odim, ta.kdim)
    let z := chunkSize cw
    let act := (s.readPattern ta false).2.1
    let wts := denseOperand (s.ent p).logical wt cw f.n k
    let g := (s.tile p).group a f.g.gid
    let el (v : State) (j : Nat) := elem (8 * accBytes g.fmt) (readRows v p (accRow a g.base) g.rows).2 j
    (s.readRef p (o.ref 25)).2 = some x → o.ix 49 16 = some wt → f.arrays = [a] → f.aSp = true → f.bSp = false → f.cSp = false →
    f.masked = false → f.pred = false → f.itemEn = false → f.close = false → f.g.opens = false → f.g.rowOff = some off →
    wideForm f.form m = true → (opSpMm p o s).status = stOk → Faultless s →
    la.progBase + la.progRows ≤ 0x6000 → la.compRow + la.compRows ≤ 0x6000 → g.base + g.rows ≤ 512 → g.fmt ≤ 2 →
    ∃ u, exec (.spMm t l) s = .next u ∧
      (u.tile p).group a f.g.gid = { g with owner := some l, positions := min (g.positions + k) (2 ^ 32 - 1) } ∧
      (∀ mm nn, mm < m → nn < f.n → el u ((off + mm) * g.gcols + (f.g.colOff + nn)) =
        (List.range (cdiv (cdiv k 32) z)).foldl (fun acc c =>
          let met := (act.lines.getD (mm / 8) []).filter (fun e => decide (z * c ≤ e.1) && decide (e.1 < z * c + z))
          if met = [] then acc
          else contribute g.fmt acc (columnSum g.fmt g.anchor (pairWidth ta.fmt cw) (met.flatMap (fun e =>
            (List.range (min 32 (k - 32 * e.1))).map (fun i =>
              (blockVal ta.fmt (s.block act e.2) (mm % 8) i,
               blockVal cw (s.block wts (nn / 8 * cdiv k 32 + e.1)) (nn % 8) i))))).1)
          (el s ((off + mm) * g.gcols + (f.g.colOff + nn)))) ∧
      ∀ j, j < g.grows * g.gcols →
        (∀ mm nn, mm < m → nn < f.n → j ≠ (off + mm) * g.gcols + (f.g.colOff + nn)) → el u j = el s j

/-- arr.mm and sp.mm. -/
def Obligations.ProductsIssue : Prop :=
  ProductsEnter ∧ DenseProductAdds ∧ SparseProductFrame ∧ SparseProductAdds

/-- c.mm of K products: each named array's output tile is the product of its operands, element by element in ascending K,
from the values it holds (CONT) or from +0 (R193). -/
def Sys2Proof.Machine.CompatProduct : Prop :=
  ∀ (s : State) (t l p act wt : Nat) (la : Launch) (o : Op), Issues s t l true p la o → o.code = 0x20 →
    let arrays := setBits 4 (o.f 16 4)
    let k := o.f 31 24
    let wr := compatRows (o.f 24 4) k
    o.ix 55 16 = some act → o.ix 71 16 = some wt → arrays ≠ [] → act + compatRows (o.f 20 4) k ≤ 0x6000 →
    wt + arrays.length * wr ≤ 0x6000 → CleanRows s p act (compatRows (o.f 20 4) k) → CleanRows s p wt (arrays.length * wr) →
    (∀ a ∈ arrays, ((s.tile p).otile a (o.f 29 1)).length = 4096) →
    ∃ u, exec (.cMm t l) s = .next u ∧ Entered s u p l la o (arrays.map TileUnit.arr) [] ∧ OnlyTile s u p ∧
      RowsKept s u p la ∧ (∀ i, u.x p l i = s.x p l i) ∧ (u.tile p).vregs = (s.tile p).vregs ∧
      (∀ i a, arrays[i]? = some a → ∀ m n, m < 64 → n < 64 →
        ((u.tile p).otile a (o.f 29 1))[64 * m + n]? =
          some ((List.range k).foldl (fun acc j =>
            compatStep (bit o.bits 28) acc
              (Val.mul (compatElem (o.f 20 4) (readRows s p act (compatRows (o.f 20 4) k)).2 (64 * j + m))
                       (compatElem (o.f 24 4) (readRows s p (wt + i * wr) wr).2 (64 * j + n))))
            (if bit o.bits 30 then ((s.tile p).otile a (o.f 29 1)).getD (64 * m + n) 0 else 0))) ∧
      ∀ a ot, (a ∉ arrays ∨ ot ≠ o.f 29 1) → ot < 2 → (u.tile p).otile a ot = (s.tile p).otile a ot

/-- c.drain writes each named array's output tile, converted under OUTFMT and ROUND, row-major from local row OUT_LROW of
that array's accumulator store, and the output tiles keep their values (R193). -/
def Sys2Proof.Machine.CompatDrain : Prop :=
  ∀ (s : State) (t l p r : Nat) (la : Launch) (o : Op), Issues s t l true p la o → o.code = 0x21 →
    let arrays := setBits 4 (o.f 16 4)
    let fmt := o.f 21 4
    let rows := 8 * fmtBytes fmt
    o.ix 27 9 = some r → arrays ≠ [] → r + rows ≤ 512 → isOutputFmt fmt = true → fmt ≠ 10 → o.f 25 2 ≤ 1 →
    la.progBase + la.progRows ≤ 0x6000 → la.compRow + la.compRows ≤ 0x6000 →
    (∀ a ∈ arrays, ((s.tile p).otile a (o.f 20 1)).length = 4096) →
    ∃ u, exec (.cDrain t l) s = .next u ∧ Entered s u p l la o (arrays.map TileUnit.arr) [] ∧ OnlyTile s u p ∧
      (u.tile p).otiles = (s.tile p).otiles ∧ (∀ i, u.x p l i = s.x p l i) ∧ (u.tile p).vregs = (s.tile p).vregs ∧
      (∀ a ∈ arrays, ∀ i, i < 4096 →
        elem (fmtBits fmt) (natOfRows ((List.range rows).map (fun k => Sparse.get 0 (u.tile p).rows (accRow a (r + k))))) i =
          (convert fmt (o.f 25 2) 0 (f32Val (((s.tile p).otile a (o.f 20 1)).getD i 0))).bits % 2 ^ fmtBits fmt) ∧
      ∀ q, (∀ a ∈ arrays, ¬ (accRow a r ≤ q ∧ q < accRow a (r + rows))) →
        ¬ (la.compRow ≤ q ∧ q < la.compRow + la.compRows) →
        Sparse.get 0 (u.tile p).rows q = Sparse.get 0 (s.tile p).rows q

/-- c.mm and c.drain. -/
def Obligations.CompatOperations : Prop := CompatProduct ∧ CompatDrain

/-! ### The concordance and merge unit -/

/-- conc.and, conc.or and conc.andn of two clean rows (R96-R100): with DW the destination row becomes the combination of the
first VALID_BITS bits, its other bits 0; without DW no row changes. -/
def Sys2Proof.Machine.BitmapCombine : Prop :=
  ∀ (s : State) (t l p a b d : Nat) (la : Launch) (o : Op), Issues s t l false p la o →
    o.ix 16 16 = some a → o.ix 32 16 = some b → o.ix 48 16 = some d → a < 0x6000 → b < 0x6000 → d < 0x6000 →
    1 ≤ o.f 65 13 → o.f 65 13 ≤ 4096 → (s.tile p).cleanAt a = true → (s.tile p).cleanAt b = true → (s.tile p).progRow d = false →
    ¬ (la.compRow ≤ d ∧ d < la.compRow + la.compRows) →
    let x := (Sparse.get 0 (s.tile p).rows a).toNat
    let y := (Sparse.get 0 (s.tile p).rows b).toNat
    let fr (r : Nat) (v : Nat) := if Sparse.get false (s.tile p).fresh r then 0 else v
    let done (i : Instr) (f : Bool → Bool → Bool) : Prop :=
      ∃ u, exec i s = .next u ∧ Entered s u p l la o [.conc] [] ∧ OnlyTile s u p ∧ (∀ i, u.x p l i = s.x p l i) ∧
        (u.tile p).unitState = (s.tile p).unitState ∧
        (∀ q, q ≠ d ∨ bit o.bits 64 = false → ¬ (la.compRow ≤ q ∧ q < la.compRow + la.compRows) →
          Sparse.get 0 (u.tile p).rows q = Sparse.get 0 (s.tile p).rows q) ∧
        (bit o.bits 64 = true → ∀ i, i < 4096 → bit (Sparse.get 0 (u.tile p).rows d).toNat i =
            (decide (i < o.f 65 13) && f (bit (fr a x) i) (bit (fr b y) i)))
    (o.code = 0x30 → done (.concAnd t l) (fun x y => x && y)) ∧
    (o.code = 0x31 → done (.concOr t l) (fun x y => x || y)) ∧
    (o.code = 0x32 → done (.concAndn t l) (fun x y => x && !y))

/-- conc.pop and conc.scan count the set bits below VALID_BITS of one row, or of COUNT rows. XD takes the count at the
operation's completion point; until then it is interlocked and every register stands (R99, R169). -/
def Sys2Proof.Machine.BitmapCounts : Prop :=
  ∀ (s : State) (t l p a : Nat) (la : Launch) (o : Op), Issues s t l false p la o → o.ix 16 16 = some a →
    let counts (i : Instr) (d n : Nat) : Prop :=
      ∃ u, exec i s = .next u ∧ Entered s u p l la o [.conc] [d] ∧
        LastFlight u p (fun f => f.writes = [(d, n)] ∧ f.res0 = n) ∧ OnlyTile s u p ∧ RowsKept s u p la ∧
        (∀ i, u.x p l i = s.x p l i) ∧ (u.tile p).unitState = (s.tile p).unitState
    (o.code = 0x33 → a < 0x6000 → 1 ≤ o.f 36 13 → o.f 36 13 ≤ 4096 → (s.tile p).cleanAt a = true →
      counts (.concPop t l) (o.f 32 4) (popcount (o.f 36 13) (readRow s p a).2.toNat)) ∧
    (o.code = 0x34 → o.f 32 16 ≠ 0 → a + o.f 32 16 ≤ 0x6000 → 1 ≤ o.f 52 13 → o.f 52 13 ≤ 4096 →
      CleanRows s p a (o.f 32 16) →
      counts (.concScan t l) (o.f 48 4)
        ((List.range (o.f 32 16)).map (fun i => popcount (o.f 52 13) (readRow s p (a + i)).2.toNat)).sum)

/-- conc.match: one entry of 16 bytes for each common bit below VALID_BITS whose rank in operand RSIDE lies in the range, in
ascending position, with the ranks of the bit in both rows added to the bases modulo 2^32 (log entry 84; R101, Table 05-2). With DW
the entries stand in the rows from D on; with QEN they join the buffer of the stream queue behind what it has, in order, and the
operation holds those it has no room for (R234), here where no descriptor of the tile is at work to take one. -/
def Sys2Proof.Machine.MatchEntries : Prop :=
  ∀ (s : State) (t l p a b : Nat) (la : Launch) (o : Op), Issues s t l false p la o → o.code = 0x35 →
    o.ix 16 16 = some a → o.ix 32 16 = some b → a < 0x6000 → b < 0x6000 → 1 ≤ o.f 65 13 → o.f 65 13 ≤ 4096 →
    (s.tile p).cleanAt a = true → (s.tile p).cleanAt b = true →
    let x := (readRow s p a).2.toNat % 2 ^ o.f 65 13
    let y := (readRow s p b).2.toNat % 2 ^ o.f 65 13
    let rank (i : Nat) := if o.f 206 1 = 0 then popcount i x else popcount i y
    let hits := (List.range (o.f 65 13)).filter (fun i => bit x i && bit y i &&
      (decide (o.f 174 32 = 0) || (decide (o.f 142 32 ≤ rank i) && decide (rank i < o.f 142 32 + o.f 174 32))))
    let n := cdiv hits.length 32
    let d := (o.ix 48 16).getD 0
    let dw := bit o.bits 64
    let qen := bit o.bits 207
    let q := o.f 208 3
    let w := s.queue p q
    let entry (e i : Nat) : Prop := fld e 0 20 = i ∧ fld e 32 32 = (o.f 78 32 + popcount i x) % 2 ^ 32 ∧
      fld e 64 32 = (o.f 110 32 + popcount i y) % 2 ^ 32
    (dw = true → o.ix 48 16 = some d ∧ d < 0x6000 ∧ d + n ≤ 0x6000 ∧ extentsMeet d n 1 la.progBase la.progRows 1 = false ∧
      extentsMeet d n 1 la.compRow la.compRows 1 = false) →
    (qen = true → (w.owner = none ∨ w.owner = some l) ∧ ∀ r, (s.queue p r).started = []) →
    ∃ u, exec (.concMatch t l) s = .next u ∧ Entered s u p l la o [.conc] [] ∧ OnlyTile s u p ∧ (∀ i, u.x p l i = s.x p l i) ∧
      (dw = true → ∀ k i, hits[k]? = some i → entry (elem 128 (Sparse.get 0 (u.tile p).rows (d + k / 32)).toNat (k % 32)) i) ∧
      (∀ r, (dw = false ∨ ¬ (d ≤ r ∧ r < d + n)) → ¬ (la.compRow ≤ r ∧ r < la.compRow + la.compRows) →
        Sparse.get 0 (u.tile p).rows r = Sparse.get 0 (s.tile p).rows r) ∧
      (qen = false → (u.tile p).unitState = (s.tile p).unitState) ∧
      (qen = true → LastFlight u p (fun f => f.emits = some (q, hits.length)) ∧
        (∃ es : List Nat, (∀ k i : Nat, hits[k]? = some i → ∃ e : Nat, es[k]? = some e ∧ entry e i) ∧ es.length = hits.length ∧
          (u.queue p q).entries ++ (u.queue p q).held = w.entries ++ w.held ++ es) ∧
        u.queue p q = { w with entries := (u.queue p q).entries, held := (u.queue p q).held } ∧
        (∀ r, r ≠ q → u.queue p r = s.queue p r) ∧
        ({ u.tile p with queues := [] } : Tile).unitState = ({ s.tile p with queues := [] } : Tile).unitState)

/-- The operations on bitmap rows: conc.and, conc.or, conc.andn, conc.pop, conc.scan and conc.match. -/
def Obligations.BitmapOperations : Prop := BitmapCombine ∧ BitmapCounts ∧ MatchEntries

/-- The pattern of a tensor as an operation reads it, from clean rows (R80-R82, R84, R93): the present blocks of each line in ascending K,
with their packed positions, padding bits and withheld blocks left out. A row-offset index, where there is one, holds the
positions that R85 gives it. -/
def Sys2Proof.Machine.PatternRead : Prop :=
  ∀ (s : State) (t : Tensor), Faultless s →
    (t.hasIndex = true → ∀ i, i < cdiv t.rb 64 → ∃ pl, decodeAddr t.index = some pl ∧
      elem 32 (s.readPlace (pl.plus (i / 128))).2.toNat (i % 128) =
        t.posAt s (64 * i / t.lineRows) (4096 * (64 * i % t.lineRows))) →
    (s.readPattern t false).2.1.lines = (List.range t.ob).map (t.blocksAt s)

/-- mrg.run whose checks pass, where every operand reads clean (R109, R117): the bitmap of the output is the OR of the partials'
patterns, its blocks stand packed in bitmap order, and each element inside the output is the sum of the contributing partials'
elements in ascending SEG order, the first taken as it is and each further one added, converted once under OUTFMT and ROUND. The
index holds the blocks before each 64 bitmap rows. Every row outside the output's regions and the completion record stands, and every
unit but the draw cursors and random buffers. -/
def Sys2Proof.Machine.MergeWrites : Prop :=
  ∀ (s : State) (t l p x ox : Nat) (la : Launch) (o : Op), Issues s t l false p la o → o.code = 0x38 →
    (opMrgRun p o s).status = stOk → Faultless s → PortsFit s →
    (s.readRef p (o.ref 16)).2 = some x → (s.readRef p (some (fld x 16 24))).2 = some ox →
    let own := (s.ent p).logical
    let ot := tensorOf ox
    let round := fld x 8 2
    let parts := ((List.range (fld x 0 4)).filterMap (fun i => (s.readRef p (some (fld x (128 + 24 * i) 24))).2)).map
      (fun y => (tensorOf y, (s.readPattern (tensorOf y) false).2.1))
    let q := (parts.map (fun e => e.1)).headD ot
    let acc := partialAcc q.fmt
    let contributions (lb cb j k : Nat) := parts.filterMap (fun e =>
      (e.2.pos lb cb).map (fun n => blockRaw e.1.fmt (s.block e.2 n) j k))
    let held (lb : Nat) := (List.range ot.kb).filter (fun cb => parts.any (fun e => e.2.hasBlock lb cb))
    let blocks := (List.range ot.ob).flatMap (fun lb => (held lb).map (fun cb => (lb, cb)))
    let pitch := if s.x p l 15 = 0 then ot.kdim else s.x p l 15
    let word (m n : Nat) := if round = 2 then
        chacha8 s.rng.key (drawCounter (fld x 64 32) ((s.x p l 14 + m * pitch + n) % 2 ^ 64) (fld x 96 32)) % 2 ^ 32
      else 0
    (∀ g ∈ ot.regions, regionsMeet g (tileAddr own la.progBase, la.progRows) = false ∧
      regionsMeet g (tileAddr own la.compRow, la.compRows) = false) →
    ∃ u, exec (.mrgRun t l) s = .next u ∧
      u.uncounted = ({ s with tiles := u.tiles, mem := u.mem }).uncounted ∧ (∀ r, r ≠ p → u.tile r = s.tile r) ∧
      (u.tile p).unitsButDraws = (s.tile p).unitsButDraws ∧ LastFlight u p (fun f => f.res0 = blocks.length) ∧
      (∀ lb k, lb < ot.ob → k < 4096 * ot.lineRows →
        bit (u.regionAt ot.bitmap ot.rb) (4096 * (lb * ot.lineRows) + k) = decide (k ∈ held lb)) ∧
      (∀ n lb cb j k : Nat, blocks[n]? = some (lb, cb) → j < 8 → k < 32 → 8 * lb + j < ot.odim → 32 * cb + k < ot.kdim →
        ∃ y rest, contributions lb cb j k = y :: rest ∧
          (let total := rest.foldl (fun a b => contribute acc a b) y
           elem (fmtBits ot.fmt) (elem (8 * blockBytes ot.fmt) (u.regionAt ot.values ot.valueRows) n) (32 * j + k) =
             if ot.fmt = 10 then total
             else (convert ot.fmt round (word (8 * lb + j) (32 * cb + k)) (accVal acc total q.anchor)).bits
               % 2 ^ fmtBits ot.fmt)) ∧
      (ot.hasIndex = true → ∀ i, i < cdiv ot.rb 64 → elem 32 (u.regionAt ot.index ot.indexRows) i =
        (blocks.filter (fun e => decide (e.1 * ot.lineRows + e.2 / 4096 < 64 * i))).length) ∧
      MemKept s u ot.regions ∧
      (∀ r, ¬ InRegions ot.regions (.scr own r) → ¬ (la.compRow ≤ r ∧ r < la.compRow + la.compRows) →
        Sparse.get 0 (u.tile p).rows r = Sparse.get 0 (s.tile p).rows r)

/-- The items of R127, in exact rational arithmetic: O-block, first rank, count, segment, segments. -/
def Sys2Proof.Machine.planItems (d : Disp) (counts : List Nat) : List PlanItem :=
  let tau : Rat := d.splitQ * (counts.sum / counts.length) / 4
  counts.zipIdx.flatMap (fun e =>
    if 0 < d.splitQ ∧ tau < e.1 then
      let nseg := min d.maxSegs (((e.1 : Rat) / (tau.ceil : Rat)).ceil).toNat
      (List.range nseg).map (fun i => (e.2, i * e.1 / nseg, (i + 1) * e.1 / nseg - i * e.1 / nseg, i, nseg))
    else [(e.2, 0, e.1, 0, 1)])

/-- disp.run whose checks pass, where every operand reads clean (R127, R128, Table 06-4): entry i of the table is item i of the plan, on
the tile that the blocks before it give, and the entries after the last in its row are zero. The plan depends on the bitmap alone.
Every other row but those of the completion record, every unit and every other tile stands. That a tile of 1,024 reads as 0 in TILE is the
model's choice (log entry 84). -/
def Sys2Proof.Machine.DispatchTable : Prop :=
  ∀ (s : State) (t l p x y : Nat) (la : Launch) (o : Op), Issues s t l false p la o → o.code = 0x39 →
    (opDispRun p o s).1.status = stOk → Faultless s →
    (s.readRef p (o.ref 16)).2 = some x → (s.readRef p (some (dispOf x).operand)).2 = some y →
    let d := dispOf x
    let counts := (List.range (tensorOf y).ob).map (fun lb => ((tensorOf y).blocksAt s lb).length)
    let items := planItems d counts
    let n := cdiv items.length 32
    extentsMeet d.tableRow n 1 la.progBase la.progRows 1 = false → extentsMeet d.tableRow n 1 la.compRow la.compRows 1 = false →
    ∃ u, exec (.dispRun t l) s = .next u ∧ OnlyTile s u p ∧ (u.tile p).unitState = (s.tile p).unitState ∧ OtherLists s u p l ∧
      LastFlight u p (fun f => f.res0 = items.length ∧
        f.res1 = (items.filter (fun e => decide (1 < e.2.2.2.2) && decide (e.2.2.2.1 = 0))).length) ∧
      (let entry (i : Nat) := elem 128 (Sparse.get 0 (u.tile p).rows (d.tableRow + i / 32)).toNat (i % 32)
       (∀ i lb first count seg nseg, items[i]? = some (lb, first, count, seg, nseg) →
          fld (entry i) 0 32 = lb ∧ fld (entry i) 32 32 = first ∧ fld (entry i) 64 32 = count ∧ fld (entry i) 96 4 = seg ∧
          fld (entry i) 100 4 = nseg ∧ fld (entry i) 114 14 = 0 ∧
          fld (entry i) 104 10 = (d.tileFirst +
            (if counts.sum = 0 then 0 else (((items.take i).map (fun e => e.2.2.1)).sum * d.tileCount) / counts.sum)) % 1024) ∧
       ∀ i, items.length ≤ i → i < 32 * n → entry i = 0) ∧
      ∀ r, ¬ (d.tableRow ≤ r ∧ r < d.tableRow + n) → ¬ (la.compRow ≤ r ∧ r < la.compRow + la.compRows) →
        Sparse.get 0 (u.tile p).rows r = Sparse.get 0 (s.tile p).rows r

/-- mrg.run and disp.run, whenever every check of R116 and R126 passes, enter the unit's queue; disp.run carries the tiles
whose signal its completion counts too (R177). ctl.dfind on a table whose TILE fields are in order answers the locator of
this tile's first entry and how many it has, or 0 and 0, at its completion point. -/
def Sys2Proof.Machine.MergeDispatchIssue : Prop :=
  ∀ (s : State) (t l p : Nat) (la : Launch) (o : Op), Issues s t l false p la o →
    (o.code = 0x38 → (opMrgRun p o s).status = stOk →
      ∃ u, exec (.mrgRun t l) s = .next u ∧ Entered s u p l la o [.conc] [] ∧ u.set = s.set ∧
        (∀ i, u.x p l i = s.x p l i)) ∧
    (o.code = 0x39 → (opDispRun p o s).1.status = stOk →
      ∃ u f, exec (.dispRun t l) s = .next u ∧ (u.tile p).flights = (s.tile p).flights ++ [f] ∧
        f.tiles = (opDispRun p o s).2 ∧ f.units = [.conc] ∧ f.status = stOk ∧ f.doneSig = o.doneSig ∧
        f.res0 = (opDispRun p o s).1.res0 ∧ MovedOn s u p l la o none false ∧ u.mem = s.mem ∧ (∀ i, u.x p l i = s.x p l i)) ∧
    (o.code = 0x08 → ∀ q, s.phys (o.f 24 10) = some q → o.f 34 16 + cdiv (o.f 50 20) 32 ≤ 0x6000 → o.f 34 16 < 0x6000 →
      ascending (tableTiles s q (o.f 34 16) (o.f 50 20)) = true → CleanRows s q (o.f 34 16) (cdiv (o.f 50 20) 32) →
      ∃ u d n, exec (.ctlDfind t l) s = .next u ∧ Entered s u p l la o [] [o.f 16 4, o.f 20 4] ∧
        LastFlight u p (fun f => f.writes = [(o.f 16 4, d), (o.f 20 4, n)]) ∧ OnlyTile s u p ∧
        RowsKept s u p la ∧ (∀ i, u.x p l i = s.x p l i) ∧
        (let ts := tableTiles s q (o.f 34 16) (o.f 50 20)
         let own := (s.ent p).logical
         n = (ts.filter (fun t => t == own)).length ∧ (own ∉ ts → d = 0) ∧
         ∀ i, ts[i]? = some own → own ∉ ts.take i → d = tileAddr (o.f 24 10) (o.f 34 16) + 16 * i))

/-- mrg.run, disp.run and ctl.dfind. -/
def Obligations.MergeAndDispatch : Prop := MergeDispatchIssue ∧ PatternRead ∧ MergeWrites ∧ DispatchTable

/-! ### Streams -/

/-- A release of COUNT ring slots, none of them a running descriptor's, of a configured queue that no other list owns: UNSTARTED
grows by COUNT and every other field of the queue's register but OWNER stands (R226). Past RING_SLOTS it is refused with
NO_RESOURCE and nothing of the queue changes but its owner (log entry 82). While the queue is being cancelled the release waits
behind the cancellation (log entry 45), and its operation or command with it. str.go and c.sgo claim the queue for their list;
stream.go does so for none, and leaves the rest of the tile as it was. -/
def Sys2Proof.Machine.ReleasesNew : Prop :=
  (∀ (s : State) (t l p : Nat) (c : Bool) (la : Launch) (o : Op), Issues s t l c p la o → o.code = 0x60 →
    let q := o.f 16 3
    let k := o.f 19 16
    let w := s.queue p q
    (w.owner = none ∨ w.owner = some l) → w.ringSlots ≠ 0 →
    (∀ i, i < k → ∀ st ∈ w.started, st.index ≠ (w.head + w.unstarted + i) % w.ringSlots) →
    ∃ u, exec (if c then .cSgo t l else .strGo t l) s = .next u ∧ OnlyTile s u p ∧
      MovedOn s u p l la o none false ∧ OtherLists s u p l ∧ RowsKept s u p la ∧ (∀ i, u.x p l i = s.x p l i) ∧
      (u.tile p).vregs = (s.tile p).vregs ∧ (u.tile p).groups = (s.tile p).groups ∧
      (u.tile p).windows = (s.tile p).windows ∧ (∀ r, r ≠ q → u.queue p r = s.queue p r) ∧
      (w.cancelling = none → (u.tile p).flights = (s.tile p).flights) ∧
      (w.cancelling = none → w.unstarted + k ≤ w.ringSlots → u.queue p q =
        { w with owner := some l, unstarted := w.unstarted + k,
                 rel := w.rel ++ List.replicate k (some ⟨l, o.bundle, o.slot⟩) }) ∧
      (w.cancelling = none → w.unstarted + k > w.ringSlots → u.queue p q = { w with owner := some l }) ∧
      (w.cancelling ≠ none → u.queue p q = { w with owner := some l, behind := w.behind ++ [.go k] } ∧
        Entered s u p l la o [.str q] [] ∧ LastFlight u p (fun f => f.held = true))) ∧
  (∀ (s : State) (n p : Nat) (c : Cmd), Starts s n 0x0502 c → s.namedTile (c.arg 0) = some p →
    let q := c.arg 1
    let k := c.arg 2
    let w := s.queue p q
    w.owner = none → w.ringSlots ≠ 0 →
    (w.cancelling = none → w.unstarted + k ≤ w.ringSlots →
      (∀ i, i < k → ∀ st ∈ w.started, st.index ≠ (w.head + w.unstarted + i) % w.ringSlots) →
      ∃ e u, exec (.streamGo n) s = .next u ∧ Answered e u c stOk 0 [] ∧
        e.uncounted = ({ s with tiles := e.tiles }).uncounted ∧
        (∀ r, r ≠ p → e.tile r = s.tile r) ∧ (∀ r, r ≠ q → e.queue p r = s.queue p r) ∧
        e.queue p q = { w with unstarted := w.unstarted + k, rel := w.rel ++ List.replicate k none } ∧
        ({ e.tile p with queues := [] } : Tile) = { s.tile p with queues := [] }) ∧
    (w.cancelling ≠ none → ∃ u, exec (.streamGo n) s = .next u ∧ Waits u n (.strGo (c.arg 0) q) ∧
      u.queue p q = { w with behind := w.behind ++ [.goCmd n k] } ∧ (∀ r, r ≠ q → u.queue p r = s.queue p r) ∧
      (∀ r, r ≠ p → u.tile r = s.tile r) ∧ ({ u.tile p with queues := [] } : Tile) = { s.tile p with queues := [] }))

/-- A release that arms a running descriptor's slot again (R226, R243). One such slot, with the shadow free: the contents of the
slot go into the shadow at the issue, which sets SHADOW to 1, and the release is otherwise as any other; the descriptor that runs
stands. More than one, or one while SHADOW is 1: BUSY_SHADOW_FULL, before NO_RESOURCE, ctr.str.shadow_full counts, and nothing
of the queue changes but its owner (log entry 82). By stream.go the same, with the queue claimed for none. -/
def Sys2Proof.Machine.ReleaseRearms : Prop :=
  (∀ (s : State) (t l p : Nat) (c : Bool) (la : Launch) (o : Op), Issues s t l c p la o → o.code = 0x60 →
    let q := o.f 16 3
    let k := o.f 19 16
    let w := s.queue p q
    (w.owner = none ∨ w.owner = some l) → w.ringSlots ≠ 0 → w.cancelling = none →
    (∀ i, w.rearmed k = [i] → w.shadow = none → w.unstarted + k ≤ w.ringSlots →
      (s.tile p).cleanAt (w.ringRow + i / 8) = true →
      ∃ u, exec (if c then .cSgo t l else .strGo t l) s = .next u ∧ OnlyTile s u p ∧
        MovedOn s u p l la o none false ∧ OtherLists s u p l ∧ RowsKept s u p la ∧ (∀ i, u.x p l i = s.x p l i) ∧
        (u.tile p).flights = (s.tile p).flights ∧ (∀ r, r ≠ q → u.queue p r = s.queue p r) ∧
        u.queue p q =
          { w with owner := some l, unstarted := w.unstarted + k,
                   rel := w.rel ++ List.replicate k (some ⟨l, o.bundle, o.slot⟩),
                   shadow := some (i, elem 512 (readRow s p (w.ringRow + i / 8)).2.toNat (i % 8)) }) ∧
    (1 < (w.rearmed k).length ∨ w.rearmed k ≠ [] ∧ w.shadow ≠ none → s.boot.phase = 5 → s.counter 0x0F01 p < 2 ^ 48 - 1 →
      ∃ u, exec (if c then .cSgo t l else .strGo t l) s = .next u ∧ Rejected s u p l la o stShadowFull 0 ∧
        (∀ r, r ≠ q → u.queue p r = s.queue p r) ∧ u.queue p q = { w with owner := some l } ∧
        u.counter 0x0F01 p = s.counter 0x0F01 p + 1)) ∧
  (∀ (s : State) (n p : Nat) (c : Cmd), Starts s n 0x0502 c → s.namedTile (c.arg 0) = some p →
    let q := c.arg 1
    let k := c.arg 2
    let w := s.queue p q
    w.owner = none → w.ringSlots ≠ 0 → w.cancelling = none →
    (∀ i, w.rearmed k = [i] → w.shadow = none → w.unstarted + k ≤ w.ringSlots →
      (s.tile p).cleanAt (w.ringRow + i / 8) = true →
      Does s (.streamGo n) c stOk 0 [] (fun e => e.uncounted = ({ s with tiles := e.tiles }).uncounted ∧
        (∀ r, r ≠ p → e.tile r = s.tile r) ∧ (∀ r, r ≠ q → e.queue p r = s.queue p r) ∧
        ({ e.tile p with queues := [] } : Tile) = { s.tile p with queues := [] } ∧
        e.queue p q =
          { w with unstarted := w.unstarted + k, rel := w.rel ++ List.replicate k none,
                   shadow := some (i, elem 512 (readRow s p (w.ringRow + i / 8)).2.toNat (i % 8)) })) ∧
    (1 < (w.rearmed k).length ∨ w.rearmed k ≠ [] ∧ w.shadow ≠ none → s.boot.phase = 5 → s.counter 0x0F01 p < 2 ^ 48 - 1 →
      Does s (.streamGo n) c stShadowFull 0 [] (fun e => e.uncounted = s.uncounted ∧
        e.counter 0x0F01 p = s.counter 0x0F01 p + 1)))

/-- The release of ring slots. -/
def Obligations.ReleaseOfSlots : Prop := ReleasesNew ∧ ReleaseRearms

/-- The start of a data descriptor (R227, R237), COPY, GATHER and MATCH: HEAD moves to the next ring slot and UNSTARTED falls
by one. A descriptor that passes every check and has rows to move is running afterwards; one whose CRC does not match is
rejected with BAD_CRC, its LAST_STATUS saying so with LAST_GEN 0, and the queue goes on. The rows that the start reads are
read without a fault. -/
def Obligations.DescriptorStarts : Prop :=
  ∀ (s : State) (t q p : Nat), s.phys t = some p → q < 8 → (s.tile p).startable q = true →
    let w := s.queue p q
    let d := (s.tile p).headDesc w
    Sparse.get false (s.tile p).fresh (w.ringRow + w.head / 8) = false → CleanRows s p (w.ringRow + w.head / 8) 1 →
    let ok (i : Instr) (rows : Nat) : Prop :=
      crcOk64 d = true → descRanges d = true → s.descUse p d = true → dPaged d = false → s.acctKey p d = none → rows ≠ 0 →
      s.extentChecks d rows = stOk → s.addrStatus d rows = stOk →
      ∃ u, exec i s = .next u ∧ (u.queue p q).head = (w.head + 1) % w.ringSlots ∧
        (u.queue p q).unstarted = w.unstarted - 1 ∧
        ∃ st ∈ (u.queue p q).started, st.index = w.head ∧ st.desc = d
    (dKind d = 0 → ok (.strCopy t q) (dRows d)) ∧
    (dKind d = 1 → ∀ sel x r, (s.readBitmap p d).2 = some sel → decodeAddr (dAux d) = some (.scr x r) →
      CleanRows s p r (cdiv (dRows d) 4096) → ok (.strGather t q) sel.length) ∧
    (dKind d = 2 → w.entries = [] → ok (.strMatch t q) (dRows d)) ∧
    (dKind d = 0 → crcOk64 d = false →
      ∃ u v, exec (.strCopy t q) s = .next u ∧ (s.startDesc p q) = v ∧ (v.queue p q).lastStatus = stBadCrc ∧
        (v.queue p q).lastGen = 0 ∧ (v.queue p q).lastIndex = w.head ∧ (v.queue p q).started = w.started ∧
        (u.queue p q).head = (w.head + 1) % w.ringSlots ∧ (u.queue p q).unstarted = w.unstarted - 1)

/-- The WINCTL descriptors (R235), each on the tile's own window: open takes the entry of its source row with pool CREDITS,
nothing consumed and the next generation; close clears the entry but for GEN; return moves consumed credits back to the
pool; read writes the entry to its destination row. Each ends OK and HEAD moves on. -/
def Obligations.WindowDescriptors : Prop :=
  ∀ (s : State) (t q p : Nat), s.phys t = some p → q < 8 → (s.tile p).startable q = true →
    let w := s.queue p q
    let d := (s.tile p).headDesc w
    let n := dWindow d
    CleanRows s p (w.ringRow + w.head / 8) 1 →
    crcOk64 d = true → descRanges d = true → s.descUse p d = true → dKind d = 3 → w.started = [] →
    Sparse.get false (s.tile p).fresh (w.ringRow + w.head / 8) = false →
    (∀ r, r ≠ q → s.queue p r = Queue.reset) →
    let ends (i : Instr) (P : State → Prop) : Prop :=
      ∃ u, exec i s = .next u ∧ (u.queue p q).lastStatus = stOk ∧ (u.queue p q).lastGen = dGen d ∧
        (u.queue p q).lastIndex = w.head ∧ (u.queue p q).head = (w.head + 1) % w.ringSlots ∧ P u ∧
        (∀ m, m ≠ n → u.win p m = s.win p m) ∧ (u.tile p).groups = (s.tile p).groups ∧ (u.tile p).vregs = (s.tile p).vregs
    (dWop d = 0 → ∀ r, decodeAddr (dSrc d) = some (.scr t r) → s.room (.scr t r) ≠ 0 → CleanRows s p r 1 →
      openStatus (s.tile p) n (fld (readRow s p r).2.toNat 0 256) = stOk →
      ends (.winctlOpen t q) (fun u => u.win p n = windowOf (fld (readRow s p r).2.toNat 0 256) (((s.win p n).gen + 1) % 256))) ∧
    (dWop d = 1 → (s.win p n).isOpen = true → (s.win p n).ledger = [] →
      ends (.winctlClose t q) (fun u => u.win p n = { Window.reset with gen := (s.win p n).gen })) ∧
    (dWop d = 2 → (s.win p n).isOpen = true → (s.win p n).ledger = [] → dWcount d ≤ (s.win p n).consumed →
      ends (.winctlReturn t q) (fun u => u.win p n =
        { s.win p n with consumed := (s.win p n).consumed - dWcount d, pool := (s.win p n).pool + dWcount d })) ∧
    (dWop d = 3 → ∀ r, decodeAddr (dDst d) = some (.scr t r) → rowExists r = true → (s.tile p).progRow r = false →
      (s.tile p).launch = none →
      ends (.winctlRead t q) (fun u => Sparse.get 0 (u.tile p).rows r = row (s.win p n).bits ∧ u.win p n = s.win p n))

/-- No read of a page table by the queues of tile `p` finds a fault: HBM has none, or no descriptor at work is paged. -/
def Sys2Proof.Machine.PagesClean (s : State) (p : Nat) : Prop :=
  s.mem.hbmFaults = [] ∨ ∀ q, ∀ e ∈ (s.queue p q).started, dPaged e.desc = false

/-- The k-th outstanding read of a queue returns (R239, R240). For the oldest running copy of backed rows of any tier to an HBM
extent: the row, as the checked read of its tier delivers it, is in the descriptor's buffer, or already on its way to its
destination; memory stands until the write completes, where no read of a page table by the queues of the tile finds a fault. -/
def Sys2Proof.Machine.ReadReturns : Prop :=
  ∀ (s : State) (t q p k i r : Nat) (st : Started) (pl : Place), s.phys t = some p →
    (s.queue p q).missing[k]? = some (0, i) → (s.queue p q).started[0]? = some st → st.srcPlace i = some pl →
    s.room pl ≠ 0 → pl.tier ≤ 3 → st.failAt = none → dKind st.desc = 0 → dPaged st.desc = false → dCvtEn st.desc = false →
    decodeAddr (dDst st.desc) = some (.hbm r) → (st.total - 1) * dDstStride st.desc < s.room (.hbm r) →
    st.done ≤ st.writes → (s.queue p q).cancelling = none → q < 8 →
    ∃ u st', exec (.rowReadReturn t q k .clean) s = .next u ∧ (u.queue p q).started[0]? = some st' ∧
      st'.index = st.index ∧ st'.desc = st.desc ∧ st'.arrived i = true ∧
      ((i, (s.readPlace pl).2) ∈ st'.buf ∨ ∃ a, (a, (s.readPlace pl).2, 0) ∈ st'.out) ∧
      (PagesClean s p → u.mem = (s.readPlace pl).1.mem)

/-- The oldest write of a queue that can complete does so: exactly the row it names takes the row that was formed, and every
other row of every memory reads as before but those of a completion record (R240, Table 10-6). A write over the mesh can
complete once fewer rows of its way are on the mesh than the queue counts as issued. No read of a page table finds a fault. -/
def Sys2Proof.Machine.WriteCompletes : Prop :=
  ∀ (s : State) (t q p j a : Nat) (x : Row) (st : Started) (rest : List (Nat × Row × Nat)), s.phys t = some p →
    s.logical p = some t →
    (s.queue p q).started.findIdx? (s.acked p q (s.queue p q)) = some j → (s.queue p q).started[j]? = some st →
    st.out = (a, x, 0) :: rest → PagesClean s p →
    let record (b : Nat) : Prop := ∃ la, (s.tile p).launch = some la ∧ la.compRow ≤ b ∧ b < la.compRow + la.compRows
    let others (u : State) : Prop := ∀ y, y ≠ p → ∀ b, Sparse.get 0 (u.tile y).rows b = Sparse.get 0 (s.tile y).rows b
    (∀ r, decodeAddr a = some (.hbm r) →
      ∃ u, exec (.rowWriteComplete t q) s = .next u ∧ others u ∧
        (∀ b, Sparse.get 0 u.mem.hbm b = if b = r then x else Sparse.get 0 s.mem.hbm b) ∧
        u.mem.cxl = s.mem.cxl ∧ u.mem.comp = s.mem.comp ∧
        (∀ b, ¬ record b → Sparse.get 0 (u.tile p).rows b = Sparse.get 0 (s.tile p).rows b)) ∧
    (∀ r, decodeAddr a = some (.scr t r) → (s.tile p).progRow r = false →
      ∃ u, exec (.rowWriteComplete t q) s = .next u ∧ others u ∧ u.mem.hbm = s.mem.hbm ∧ u.mem.cxl = s.mem.cxl ∧
        u.mem.comp = s.mem.comp ∧
        (∀ b, ¬ record b → Sparse.get 0 (u.tile p).rows b = if b = r then x else Sparse.get 0 (s.tile p).rows b)) ∧
    (s.overMesh p a = true →
      ∃ u, exec (.rowWriteComplete t q) s = .next u ∧ others u ∧ u.mem.hbm = s.mem.hbm ∧ u.mem.cxl = s.mem.cxl ∧
        u.mem.comp = s.mem.comp ∧ (∀ b, ¬ record b → Sparse.get 0 (u.tile p).rows b = Sparse.get 0 (s.tile p).rows b))

/-- A read of a transfer returns, and a write completes. -/
def Obligations.RowTransfers : Prop := ReadReturns ∧ WriteCompletes

/-- Cancellation (R244, R245). str.cancel, c.scancel and stream.cancel of an idle queue end at once with nothing discarded.
Of a queue at work they drop what is released and unstarted, the shadow and the buffered match entries, whose room takes what a
conc.match still holds (log entry 45), and the queue is CANCELLING; of a queue that is CANCELLING they wait their turn (log
entry 45). -/
def Sys2Proof.Machine.CancelBegins : Prop :=
  (∀ (s : State) (t l p : Nat) (c : Bool) (la : Launch) (o : Op), Issues s t l c p la o → o.code = 0x61 →
    let q := o.f 16 3
    let w := s.queue p q
    (w.owner = none ∨ w.owner = some l) → w.ringSlots ≠ 0 →
    ∃ u, exec (if c then .cScancel t l else .strCancel t l) s = .next u ∧ (∀ r, r ≠ q → u.queue p r = s.queue p r) ∧
      (w.unstarted = 0 → w.started = [] → w.cancelling = none →
        u.queue p q = { w with owner := some l, lastDiscard := 0 } ∧ (u.tile p).flights = (s.tile p).flights ∧
        MovedOn s u p l la o none false) ∧
      ((w.unstarted ≠ 0 ∨ w.started ≠ []) → w.cancelling = none → (∀ st ∈ w.started, s.acctKey p st.desc = none) →
        u.queue p q = { w with owner := some l,
                               cancelling := some ⟨w.unstarted, .op, (s.clock (dieOf p)).count⟩, unstarted := 0, rel := [],
                               shadow := none, entries := w.held.take 32, held := w.held.drop 32 } ∧ s.queueState p q ≠ 6 ∧ u.queueState p q = 6 ∧
        Entered s u p l la o [.str q] [] ∧ LastFlight u p (fun f => f.held = true)) ∧
      (w.cancelling ≠ none → u.queue p q = { w with owner := some l, behind := w.behind ++ [.cancel .op] } ∧
        Entered s u p l la o [.str q] [] ∧ LastFlight u p (fun f => f.held = true))) ∧
  (∀ (s : State) (n p : Nat) (c : Cmd), Starts s n 0x0503 c → s.namedTile (c.arg 0) = some p →
    let w := s.queue p (c.arg 1)
    w.owner = none → w.ringSlots ≠ 0 →
    (w.unstarted = 0 → w.started = [] → w.cancelling = none →
      ∃ e u, exec (.streamCancel n) s = .next u ∧ Answered e u c stOk 0 [0, 0] ∧
        e.queue p (c.arg 1) = { w with lastDiscard := 0 }) ∧
    (w.unstarted ≠ 0 → w.started = [] → w.cancelling = none →
      ∃ u, exec (.streamCancel n) s = .next u ∧ u.queueState p (c.arg 1) = 6 ∧
        Waits u n (.strCancel (c.arg 0) (c.arg 1))) ∧
    (w.cancelling ≠ none →
      ∃ u, exec (.streamCancel n) s = .next u ∧ u.queue p (c.arg 1) = { w with behind := w.behind ++ [.cancel (.cmd n)] } ∧
        Waits u n (.strCancel (c.arg 0) (c.arg 1))))

/-- The end of a cancellation (R244, R245), the queue being the only one of its tile with anything to do. Once no read is
outstanding and every write issued is complete, the queue is idle again with LAST_STATUS CANCELLED; 8 us after its beginning
the reads still outstanding are abandoned and counted, here where nothing falls due at an arbiter by then. A str.go that waited
behind it then releases from the unchanged HEAD (log entry 45). -/
def Sys2Proof.Machine.CancelEnds : Prop :=
  ∀ (s : State) (t q p : Nat) (x : Cancel), s.phys t = some p → s.logical p = some t →
    (s.queue p q).cancelling = some x → (∀ st ∈ (s.queue p q).started, s.acctKey p st.desc = none) →
    (s.queue p q).ringSlots ≠ 0 → q < 8 → (∀ r, r ≠ q → s.queue p r = Queue.reset) →
    let ended (u : State) : Prop := (u.queue p q).cancelling = none ∧ (u.queue p q).started = [] ∧
      ((s.queue p q).behind = [] → u.queueState p q = 1) ∧
      ((s.queue p q).started ≠ [] → (u.queue p q).lastStatus = stCancelled) ∧
      ∀ k, (s.queue p q).behind = [.go k] → k ≤ (s.queue p q).ringSlots →
        (u.queue p q).unstarted = k ∧ (u.queue p q).head = (s.queue p q).head
    ((s.queue p q).behind = [] ∨ ∃ k, (s.queue p q).behind = [.go k]) →
    ((s.queue p q).missing = [] → (∀ st ∈ (s.queue p q).started, st.out = []) →
      ∃ u, exec (.cancelComplete t q) s = .next u ∧ ended u) ∧
    (let n := untilReading (s.clock (dieOf p)).count (x.since + 8000)
     (s.queue p q).missing ≠ [] → s.passTime (dieOf p) n = s.pass (dieOf p) n → s.boot.phase = 5 → p < numPhys →
      s.counter 0x0F04 p + (s.queue p q).missing.length < 2 ^ 48 →
      ∃ u, exec (.cancelTimeout t q) s = .next u ∧ ended u ∧
        u.counter 0x0F04 p = s.counter 0x0F04 p + (s.queue p q).missing.length ∧
        untilReading (u.clock (dieOf p)).count (x.since + 8000) = 0)

/-- Cancellation: its beginning and its end. -/
def Obligations.Cancellation : Prop := CancelBegins ∧ CancelEnds

/-! ### Windows and credits -/

/-- A credit request reaches an open window that permits its source and has room in its ledger (R219): the grant that goes
back carries min(COUNT, POOL) and, with WAIT, what is still pending; the pool falls by the grant and the source holds it. -/
def Sys2Proof.Machine.CreditRequested : Prop :=
  ∀ (s : State) (k dst win count src p : Nat) (wait : Bool), s.mesh[k]? = some (.request dst win count wait false src) →
    s.phys dst = some p → s.logical p = some dst → win ≤ 15 →
    let w := s.win p win
    let e := w.entryOf (srcWord src s.house)
    let given := min count w.pool
    let left := if wait then count - given else 0
    w.isOpen = true → w.permits s.house (srcWord src s.house) = true → (e = none → w.ledger.length < 8) →
    (∀ x, e = some x → x.want = 0) → (given ≠ 0 ∨ left ≠ 0) →
    ∃ u, exec (.creditRequest k) s = .next u ∧
      u.mesh = dropAt s.mesh k ++ [.grant src dst win false stOk w.gen w.rows given left] ∧
      (u.win p win).pool = w.pool - given ∧ (u.win p win).isOpen = true ∧ (u.win p win).gen = w.gen ∧
      (∃ x, (u.win p win).entryOf (srcWord src s.house) = some x ∧ x.want = left ∧
        x.held = (match e with
          | some y => y.held
          | none => 0) + given) ∧
      (∀ m, m ≠ win → u.win p m = s.win p m) ∧ (∀ r, r ≠ p → u.tile r = s.tile r) ∧ u.mem = s.mem

/-- A grant reaches the writer's account (R242): credits held grow by it, or start again from it under a new generation. -/
def Sys2Proof.Machine.CreditGranted : Prop :=
  ∀ (s : State) (k dst owner win gen rows granted left p : Nat) (a : Account),
    s.mesh[k]? = some (.grant dst owner win false stOk gen rows granted left) → s.phys dst = some p →
    (s.tile p).acct ⟨s.house, owner, false, win⟩ = some a → (∀ q, s.queue p q = Queue.reset) → granted ≠ 0 →
    ∃ u a', exec (.creditGrant k) s = .next u ∧ u.mesh = dropAt s.mesh k ∧
      (u.tile p).acct ⟨s.house, owner, false, win⟩ = some a' ∧ a'.gen = gen ∧ a'.known = true ∧ a'.pending = left ∧
      (a.known = true → a.gen = gen → a'.held = a.held + granted ∧ a'.rows = a.rows) ∧
      (a.known = true → a.gen ≠ gen → a'.held = granted ∧ a'.rows = rows ∧ a'.sent = 0) ∧
      (a.known = false → a'.held = granted ∧ a'.rows = rows) ∧
      (u.tile p).windows = (s.tile p).windows ∧ (∀ r, r ≠ p → u.tile r = s.tile r) ∧ u.mem = s.mem

/-- A credit request at the owner, and its grant at the writer. -/
def Obligations.CreditExchange : Prop := CreditRequested ∧ CreditGranted

/-- A row that passes every check of Table 09-5 lands (R222, R223), from the mesh and from the companion alike: exactly the
row BASE_ROW + offset takes it, the source's credit is spent and consumed, ARRIVE_SIG counts when enabled. -/
def Sys2Proof.Machine.RowArrives : Prop :=
  ∀ (s : State) (t p win off : Nat) (x : Row) (e : Ledger) (src : Nat), s.phys t = some p →
    let w := s.win p win
    let lands (i : Instr) : Prop :=
      w.isOpen = true → w.permits s.house src = true → w.entryOf src = some e → e.held ≠ 0 → off < w.rows →
      (s.tile p).progRow (w.baseRow + off) = false → (w.ledger.filter (fun f => f.src == src)).length = 1 →
      ∃ u, exec i s = .next u ∧
        (∀ r, Sparse.get 0 (u.tile p).rows r = if r = w.baseRow + off then x else Sparse.get 0 (s.tile p).rows r) ∧
        (u.win p win).consumed = w.consumed + 1 ∧ (u.win p win).pool = w.pool ∧
        (∀ d, (u.tile p).signal d =
          if w.arriveEn = true ∧ d = w.arriveSig then ((s.tile p).signal d + 1) % 2 ^ 32 else (s.tile p).signal d) ∧
        (∀ y, (u.win p win).entryOf src = some y → y.held = e.held - 1) ∧ u.mem = s.mem ∧
        (∀ m, m ≠ win → u.win p m = s.win p m) ∧ (∀ r, r ≠ p → u.tile r = s.tile r)
    (∀ k st q remain, s.mesh[k]? = some (.row st q t false (some win) false w.gen off remain x) → src = srcWord st s.house →
      (s.mesh.take k).any (fun m => match m with
        | .row a b c d f _ _ _ _ _ => a == st && b == q && c == t && d == false && f == some win
        | _ => false) = false → lands (.windowRowArrival k)) ∧
    (s.arc.linkUp = true → src = srcCompanion → lands (.arcadeWwr t win w.gen off x))

/-- A row that fails a check of Table 09-5, the first in its order, is dropped and counted, and no row changes (R222): 1, no window
named; 2, not open; 3, a stale generation; 4, a source not permitted; 5, no credit held. These leave the window as it was, but for
the deadline that a row of the mesh brings. Checks 6, outside the window's rows, and 7, a program row of a running launch, take
the source's credit, which goes to the pool. A row for a vacant tile is dropped before the checks and counted for the device. -/
def Sys2Proof.Machine.RowDropped : Prop :=
  (∀ (s : State) (i : Instr) (p : Nat) (a : Arrival) (mesh : List Mesh), Brings s i p a mesh → s.boot.phase = 5 →
    let drop (code : Nat) (P : State → Prop) : Prop := s.counter code p < 2 ^ 48 - 1 →
      ∃ u, exec i s = .next u ∧ Dropped s u p code mesh ∧ P u
    (a.win = none → drop 0x0E03 (fun u => (u.tile p).windows = (s.tile p).windows)) ∧
    (∀ n, a.win = some n →
      let w := s.win p n
      let stands (code : Nat) : Prop := drop code (fun u =>
        (∀ m, m ≠ n → u.win p m = s.win p m) ∧ ({ u.win p n with due := w.due } : Window) = w)
      let pooled (code : Nat) : Prop := ∀ e, w.entryOf a.src = some e → e.held ≠ 0 →
        (w.ledger.filter (fun f => f.src == a.src)).length = 1 →
        drop code (fun u => (∀ m, m ≠ n → u.win p m = s.win p m) ∧ (u.win p n).pool = w.pool + 1 ∧
          (u.win p n).entryOf a.src =
            (if ({ e with held := e.held - 1 } : Ledger).idle then none else some { e with held := e.held - 1 }) ∧
          (∀ x, x ≠ a.src → (u.win p n).entryOf x = w.entryOf x) ∧
          ({ u.win p n with pool := 0, ledger := [], due := 0 } : Window) = { w with pool := 0, ledger := [], due := 0 })
      let row := if a.byRow then a.off else w.baseRow + a.off
      (w.isOpen = false → stands 0x0E04) ∧
      (w.isOpen = true → a.gen ≠ w.gen → stands 0x0E05) ∧
      (w.isOpen = true → a.gen = w.gen → w.permits s.house a.src = false → stands 0x0E06) ∧
      (w.isOpen = true → a.gen = w.gen → w.permits s.house a.src = true →
        (∀ e, w.entryOf a.src = some e → e.held = 0) → stands 0x0E07) ∧
      (w.isOpen = true → a.gen = w.gen → w.permits s.house a.src = true →
        (row < w.baseRow ∨ w.baseRow + w.rows ≤ row) → pooled 0x0E08) ∧
      (w.isOpen = true → a.gen = w.gen → w.permits s.house a.src = true →
        w.baseRow ≤ row → row < w.baseRow + w.rows → (s.tile p).progRow row = true → pooled 0x0B01))) ∧
  (∀ (s : State) (t : Nat), s.phys t = none → s.boot.phase = 5 → s.counter 0x0E09 0 < 2 ^ 48 - 1 →
    (∀ w gen off x, s.arc.linkUp = true → ∃ u, exec (.arcadeWwr t w gen off x) s = .next u ∧ u.uncounted = s.uncounted ∧
      u.counter 0x0E09 0 = s.counter 0x0E09 0 + 1) ∧
    (∀ k st q win byRow gen off remain x, s.mesh[k]? = some (.row st q t false win byRow gen off remain x) →
      (s.mesh.take k).any (fun m => match m with
        | .row a b c d f _ _ _ _ _ => a == st && b == q && c == t && d == false && f == win
        | _ => false) = false →
      ∃ u, exec (.windowRowArrival k) s = .next u ∧ u.uncounted = ({ s with mesh := dropAt s.mesh k }).uncounted ∧
        u.counter 0x0E09 0 = s.counter 0x0E09 0 + 1))

/-- The arrival of a row at a window. -/
def Obligations.WindowArrival : Prop := RowArrives ∧ RowDropped

/-! ### Arbiters, banks and clocks -/

/-- What an arbiter's event leaves alone: other arbiters, the tiles, memory, the journal and the links. -/
def Sys2Proof.Machine.ArbiterOnly (s u : State) (r : ResId) : Prop :=
  u.uncounted = ({ s with arbs := u.arbs }).uncounted ∧ ∀ x, x ≠ r → u.arb x = s.arb x

/-- A request as the holder of its grant: granted after its deadline it has been counted (R281). -/
def Sys2Proof.Machine.Req.granted (q : Req) : Req := { q with counted := q.counted || q.overdue }

/-- The request that reaches an arbiter (R268, R269, R273, R286). At its first one it has the budget and the CLASS of its
requester, a stream read those of the started descriptor that makes it, and its deadline is the reading of the die's counter and
that budget; a write-back's is no nearer than it where others are parked (log entry 47). A debug request, which there is where
the debug fuse is blown, is the emergency requester's at every arbiter. From another die or another arbiter it has the header it
carries, and is overdue when its deadline passed on the way. -/
def Sys2Proof.Machine.RequestArrives : Prop :=
  ∀ (s : State) (r : ResId),
    (∀ k read lock unlock source classP budget, s.entryOf k read = some (classP, budget) →
      ∃ q, s.arrive r (.first k read lock unlock source) = some (q, s) ∧ q.classP = (classP && takesClassP r) ∧
        ((k ≠ .writeBack ∨ (s.arb r).pending ++ (s.arb r).outside = []) →
          q.deadline = ((s.clock (s.resDie r)).count + budget % 65536) % 2 ^ 20) ∧ q.overdue = false ∧
        q.lock = (lock && !q.classP) ∧ q.unlock = unlock ∧ q.source = source ∧ q.order = (s.arb r).next ∧
        q.emerg = (k == .debug) ∧ q.control = (k == .control) ∧ q.headP = classP) ∧
    (∀ t q p j st read, s.phys t = some p → (s.queue p q).started[j]? = some st →
      s.entryOf (.stream t q j) read = some (read && dClass st.desc, dBudget st.desc)) ∧
    (s.fuses.debug = false → ∀ read lock unlock source,
      exec (.arbiterRequest r (.first .debug read lock unlock source)) s = .next s) ∧
    (∀ (k : Nat) (x : Transit), s.transit[k]? = some x →
      ∃ q, s.arrive r (.crossed k) = some (q, { s with transit := dropAt s.transit k }) ∧
        q.classP = (x.hdr.classP && takesClassP r) ∧ q.source = x.hdr.source ∧ q.emerg = x.hdr.emerg ∧
        q.read = x.read ∧ q.leg = x.leg ∧ q.control = x.control ∧
        q.deadline = x.deadline.getD (((s.clock (s.resDie r)).count + x.hdr.remain % 65536) % 2 ^ 20) ∧
        (x.deadline = none → q.overdue = x.hdr.overdue) ∧
        ∀ d, x.deadline = some d → q.overdue = (x.hdr.overdue || untilDeadline (s.clock (s.resDie r)).count d == 0))

/-- The decision on a request (R270-R276), at an arbiter whose OVERDUE transitions are made and whose watchdog is not due. Alone at a
free resource it is granted in its own handshake, and LOCK locks the resource for its source. Another source's lock, and a class L
holder, park it; while 16 are held it waits in phase 1 and is counted, but for the emergency requester, which needs no entry, and
a control frame at Causeway egress, which waits for the frame in progress alone (Table 12-6). A
class P holder of a transfer of many beats is preempted by a request that
outranks it and waits again. The emergency requester, a refresh among them, displaces a class L holder, whose transfer is
kept to resume and whose lock stands, and a refresh the emergency requester too (R276). An array's result write waits outside the queue. -/
def Sys2Proof.Machine.ArbiterDecides : Prop :=
  (∀ (s s' : State) (r : ResId) (x : ReqEntry) (q : Req), s.arrive r x = some (q, s') →
    let m := s'.lapse r
    let held := (m.arb r).pending.filter (fun y => !y.emerg)
    NoBite m r (s'.clock (s'.resDie r)).count →
    let a := m.arb r
    let goes (P : State → Prop) : Prop := ∃ u, exec (.arbiterRequest r x) s = .next u ∧ ArbiterOnly s' u r ∧ P u
    (a.holder = none → a.pending = [] → a.locked = none →
      goes (fun u => (u.arb r).holder = some q.granted ∧
        (u.arb r).locked = (if q.lock then some q.source else none) ∧
        (u.arb r).since = some (s'.clock (s'.resDie r)).count)) ∧
    (∀ src, q.result = false → a.holder = none → a.locked = some src → src ≠ q.source → q.emerg = false → q.first = false →
      held.length < 16 → goes (fun u => (u.arb r).holder = none ∧ (u.arb r).pending = a.pending ++ [q] ∧
        (u.arb r).locked = a.locked)) ∧
    (∀ h, q.result = false → a.holder = some h → h.classP = false →
      (q.emerg = false ∨ h.emerg = true ∨ manyBeats r = false) → (held.length < 16 ∨ q.emerg = true) → goes (fun u => (u.arb r).holder = some h ∧ (u.arb r).pending = a.pending ++ [q] ∧
        (u.arb r).locked = a.locked)) ∧
    (q.result = false → q.emerg = false → q.first = false → 16 ≤ held.length → s.boot.phase = 5 → s'.resDie r < 32 →
      m.counter 0x1301 (s'.resDie r) < 2 ^ 48 - 1 →
      goes (fun u => (u.arb r).holder = a.holder ∧ (u.arb r).pending = a.pending ∧ (u.arb r).outside = a.outside ++ [q] ∧
        u.counter 0x1301 (s'.resDie r) = m.counter 0x1301 (s'.resDie r) + 1)) ∧
    (∀ h, q.result = false → a.holder = some h → h.classP = true → manyBeats r = true → q.emerg = false → a.pending = [] →
      a.locked = none → q.outranks h = true → s'.resDie r < 32 → s.boot.phase = 5 →
      m.counter 0x1302 (s'.resDie r) < 2 ^ 48 - 1 →
      goes (fun u => (u.arb r).holder = some q.granted ∧ (u.arb r).pending = [h] ∧
        u.counter 0x1302 (s'.resDie r) = m.counter 0x1302 (s'.resDie r) + 1)) ∧
    (∀ h, q.result = false → a.holder = some h → h.classP = false → h.emerg = false → manyBeats r = true → q.emerg = true →
      a.pending = [] → goes (fun u => (u.arb r).holder = some q.granted ∧ (u.arb r).resume = some h ∧
        ((u.arb r).locked = a.locked ∨ a.locked = none))) ∧
    (∀ h, q.result = false → q.first = true → a.holder = some h → h.classP = false → h.emerg = false → q.emerg = false →
      goes (fun u => (u.arb r).holder = some h ∧ (u.arb r).pending = a.pending ++ [q] ∧ (u.arb r).locked = a.locked ∧
        (u.arb r).outside = a.outside)) ∧
    (∀ h, q.result = true → a.holder = some h →
      goes (fun u => (u.arb r).holder = some h ∧ (u.arb r).pending = a.pending ∧ (u.arb r).results = a.results ++ [q]))) ∧
  (∀ (s : State) (c : Nat),
    let r : ResId := .hbm c
    let a := (s.lapse r).arb r
    let goes (P : State → Prop) : Prop := ∃ u, exec (.hbmRefresh c) s = .next u ∧ ArbiterOnly s u r ∧ P u
    NoBite (s.lapse r) r (s.clock (s.resDie r)).count →
    (a.holder = none → a.pending = [] → goes (fun u => ∃ y, (u.arb r).holder = some y ∧ y.emerg = true ∧
      (u.arb r).locked = a.locked)) ∧
    (∀ h, a.holder = some h → h.classP = false → (h.emerg = false ∨ h.refresh = false) → a.pending = [] →
      goes (fun u => ∃ y, (u.arb r).holder = some y ∧ y.emerg = true ∧ (u.arb r).resume = some h ∧
        (u.arb r).locked = a.locked)))

/-- The release of a resource whose watchdog is not due (R271, R272, R274, R276). An array's result write that waits is served first, then the emergency
requester, then a displaced transfer, then the one pending request that the lock admits; else the resource is free. UNLOCK of
the locking source ends the lock. A request goes on from a crossing or a mesh output, over a crossing with what remains of its
deadline; the row of a read returns from a bank or a channel (R268, R269). -/
def Sys2Proof.Machine.ArbiterFrees : Prop :=
  ∀ (s : State) (r : ResId) (x : Req), ((s.lapse r).arb r).holder = some x →
    NoBite (s.lapse r) r (s.clock (s.resDie r)).count →
    let a := (s.lapse r).arb r
    let locked := if x.unlock = true ∧ a.locked = some x.source then none else a.locked
    let frees (P : State → Prop) : Prop := ∃ u, exec (.arbiterRelease r) s = .next u ∧
      ArbiterOnly { s with transit := u.transit } u r ∧ (u.arb r).locked = locked ∧ P u
    (∀ q rest, a.results = q :: rest → q.lock = false → frees (fun u => (u.arb r).holder = some q.granted ∧
      (u.arb r).results = rest)) ∧
    (∀ y, a.results = [] → a.resume = some y → (∀ q ∈ a.pending, q.emerg = false) →
      frees (fun u => (u.arb r).holder = some y ∧ (u.arb r).resume = none)) ∧
    (∀ y q, a.results = [] → a.resume = some y → a.pending = [q] → q.emerg = true → q.lock = false → a.outside = [] →
      frees (fun u => (u.arb r).holder = some q.granted ∧ (u.arb r).resume = some y)) ∧
    (a.results = [] → a.resume = none → a.pending = [] →
      frees (fun u => (u.arb r).holder = none ∧ (locked = none → a.outer = none → (u.arb r).since = none))) ∧
    (∀ q, a.results = [] → a.resume = none → q ∈ a.pending → q.emerg = true → (∀ y ∈ a.pending, y ≠ q → y.emerg = false) →
      q.lock = false → a.outside = [] → frees (fun u => (u.arb r).holder = some q.granted ∧
        (u.arb r).pending = a.pending.filter (fun y => y.order != q.order))) ∧
    (∀ q, a.results = [] → a.resume = none → a.pending = [q] → a.outside = [] → q.lock = false →
      (locked = none ∨ locked = some q.source ∨ q.emerg = true) →
      frees (fun u => (u.arb r).holder = some q.granted ∧ (u.arb r).pending = [])) ∧
    (∃ u, exec (.arbiterRelease r) s = .next u ∧
      (match r with
       | .xing _ _ _ => ∃ y, u.transit = s.transit ++ [y] ∧ y.hdr.source = x.source ∧ y.hdr.classP = x.classP ∧
           y.hdr.lock = x.lock ∧ y.hdr.emerg = x.emerg ∧ y.deadline = none ∧ y.read = x.read ∧ y.control = x.control ∧
           y.hdr.overdue = (x.overdue || untilDeadline (s.clock (s.resDie r)).count x.deadline == 0) ∧
           y.hdr.remain = (if x.overdue then 0 else min (untilDeadline (s.clock (s.resDie r)).count x.deadline) 65535)
       | .mesh _ _ => ∃ y, u.transit = s.transit ++ [y] ∧ y.hdr.source = x.source ∧ y.deadline = some x.deadline
       | .cwy _ => u.transit = s.transit
       | .hbm _ => (x.leg ≠ .back ∧ x.read = true → ∃ y, u.transit = s.transit ++ [y] ∧ y.leg = .back ∧
             y.deadline = some x.deadline) ∧
           (x.leg = .back ∨ x.read = false → u.transit = s.transit)
       | .bank _ => (x.leg = .onward ∧ x.read = true → ∃ y, u.transit = s.transit ++ [y] ∧ y.leg = .back ∧
             y.deadline = some x.deadline ∧ y.hdr.classP = (if takesClassP r then x.classP else x.headP)) ∧
           (x.leg ≠ .onward ∨ x.read = false → u.transit = s.transit)))

/-- The deadline of a pending request passes (R270, R275), here where no other arbiter is in use and no watchdog is due by then: the
counter of the die has come to it (log entry 47), and every request of the arbiter whose deadline has passed is overdue. A class L holder and the holder of a transfer of one beat stand; a class
P transfer of many beats gives way to a pending request that, now overdue, outranks it. -/
def Sys2Proof.Machine.DeadlinePasses : Prop :=
  ∀ (s : State) (r : ResId) (i : Nat) (q : Req), (s.arb r).pending[i]? = some q →
    let a := s.arb r
    let d := s.resDie r
    let c := ((s.clock d).count + untilDeadline (s.clock d).count q.deadline) % 2 ^ 48
    let goes (P : State → Prop) : Prop := ∃ u, exec (.deadlinePassed r i) s = .next u ∧
      ArbiterOnly { s with clocks := u.clocks } u r ∧ (u.clock d).count = c ∧ (∀ e, e ≠ d → u.clock e = s.clock e) ∧ P u
    s.arbs = [(r, a)] → NoBite s r c →
    (Req.lapse c q).overdue = true ∧
    (∀ y, (Req.lapse c y) = (if untilDeadline c y.deadline = 0 then { y with overdue := true } else y)) ∧
    ((∀ x, a.holder = some x → x.classP = false ∨ manyBeats r = false) →
      goes (fun u => (u.arb r).pending = a.pending.map (Req.lapse c) ∧ (u.arb r).holder = a.holder.map (Req.lapse c) ∧
        (u.arb r).locked = a.locked ∧ (u.arb r).resume = a.resume.map (Req.lapse c))) ∧
    (∀ x, a.holder = some x → x.classP = true → manyBeats r = true → a.locked = none → a.pending = [q] → a.outside = [] →
      q.overdue = false → (Req.lapse c q).outranks (Req.lapse c x) = true → d < 32 → s.boot.phase = 5 →
      s.counter 0x1302 d < 2 ^ 48 - 1 →
      goes (fun u => (u.arb r).holder = some (Req.lapse c q).granted ∧ (u.arb r).pending = [Req.lapse c x] ∧
        u.counter 0x1302 d = s.counter 0x1302 d + 1))

/-- The arbiters. -/
def Sys2Proof.Machine.Arbitration : Prop := RequestArrives ∧ ArbiterDecides ∧ ArbiterFrees ∧ DeadlinePasses

/-- A watchdog bites at its limit (R277-R280): the change of counter bit 10 that is one more than its WD_* value after the
watchdog's start. The grant and the lock of the holder end, ctr.arb.watchdog counts, Curator is notified with the resource and
the SOURCE, the top-ranked pending request is granted, the watchdog of a lock of another source runs on, and a launch of the
holder's tile is stopped with WATCHDOG. A release that comes when the limit has been reached is bitten as well, and nothing of the
holder goes on. Which tile a SOURCE names is left open (log entry 3). Here no other arbiter is in use. -/
def Sys2Proof.Machine.WatchdogBites : Prop :=
  (∀ (s : State) (r : ResId) (silent : Bool), ((s.arb r).since = none ∨ (s.arb r).owner = none) →
    exec (.watchdogBite r silent) s = .next s) ∧
  ∀ (s : State) (r : ResId) (x : Req) (w : Nat), (s.arb r).holder = some x → (s.arb r).since = some w →
    (s.arb r).results = [] → x.classP = false → s.arbs = [(r, s.arb r)] →
    let a := s.arb r
    let d := s.resDie r
    let after (v : Nat) := 1024 * (v / 1024 + s.live (watchdogKey r) + 1)
    let c := ((s.clock d).count + untilReading (s.clock d).count (after w)) % 2 ^ 48
    let locked := if a.locked = some x.source then none else a.locked
    s.live (watchdogKey r) < 65536 → (a.outer = none → locked = none) → (∀ v, a.outer = some v → untilReading c (after v) ≠ 0) →
    (∀ silent, Config.sourceTile x.source = none → d < 32 → s.boot.phase = 5 → s.counter 0x1304 d < 2 ^ 48 - 1 →
      let goes (P : State → Prop) : Prop := ∃ u, exec (.watchdogBite r silent) s = .next u ∧
        ArbiterOnly { s with clocks := u.clocks, cur := { s.cur with notices := s.cur.notices ++ [.watchdog r x.source] } } u r ∧
        (u.clock d).count = c ∧ untilReading (u.clock d).count (after w) = 0 ∧ (u.arb r).locked = locked ∧
        u.counter 0x1304 d = s.counter 0x1304 d + 1 ∧ P u
      (a.pending = [] → a.resume = none → goes (fun u => (u.arb r).holder = none ∧ (u.arb r).since = a.outer)) ∧
      (∀ q, a.pending = [q] → a.outside = [] → q.lock = false → (locked = none ∨ locked = some q.source) →
        goes (fun u => (u.arb r).holder = some (Req.lapse c q).granted ∧ (u.arb r).pending = []))) ∧
    (Config.sourceTile x.source = none → a.pending = [] → a.resume = none → untilReading (s.clock d).count (after w) = 0 →
      d < 32 → s.boot.phase = 5 → s.counter 0x1304 d < 2 ^ 48 - 1 →
      ∃ u, exec (.arbiterRelease r) s = .next u ∧ (u.arb r).holder = none ∧ (u.arb r).locked = locked ∧
        u.counter 0x1304 d = s.counter 0x1304 d + 1 ∧ u.transit = s.transit ∧
        u.cur.notices = s.cur.notices ++ [.watchdog r x.source]) ∧
    (∀ p la, Config.sourceTile x.source = some p → (s.tile p).launch = some la → la.stopping = none →
      (∀ l, l < 4 → ((s.tile p).list l).waiting = []) → (∀ q, (s.queue p q).owner = none) → a.pending = [] →
      ∃ u, exec (.watchdogBite r false) s = .next u ∧ (a.resume = none → (u.arb r).holder = none) ∧
        (u.tile p).launch = some { la with stopping := some stWatchdog } ∧
        (∀ l, l < 4 → ((s.tile p).list l).enabled = true → ((u.tile p).list l).ended = true) ∧
        (∀ y, y ≠ p → u.tile y = s.tile y))

/-- The arbiters and their watchdog. -/
def Obligations.ArbitersAndWatchdog : Prop := Arbitration ∧ WatchdogBites

/-- A bank's accesses (R203-R205). Patrol and late checks take free ones only, and do nothing while the bank's arbiter has a holder,
a lock or a request (R283). The patrol visits every row of its bank and its spares in turn; a row with one wrong bit
is counted as corrected and queued for write-back, a fresh row too (R147); the write-back stores the row as corrected, which
clears errors that a write clears; the late check of a combine counts an error once for the combine. -/
def Obligations.BankMaintenance : Prop :=
  ∀ (s : State) (id : BankId),
    let p := (bankKey id).1
    let b := (bankKey id).2
    let k := (s.tile p).bank b
    (s.bankFree id = false → exec (.patrolRead id) s = .next s ∧ exec (.combineLateCheck id) s = .next s) ∧
    (s.bankFree id = true → (∀ br, k.patrolled b k.patrol = some br → Sparse.get [] k.faults (k.place b br) = [] ∧ br ∉ k.wback) →
      ∃ u, exec (.patrolRead id) s = .next u ∧
        (u.tile p).bank b = { k with patrol := (k.patrol + 1) % (bankRows b + bankSpares b) } ∧
        u = { s with tiles := u.tiles } ∧ (u.tile p).rows = (s.tile p).rows) ∧
    (s.bankFree id = true → ∀ c i br, k.patrol < bankRows b → Sparse.get 0 k.remap k.patrol = 0 → br = k.patrol →
      Sparse.get [] k.faults br = [⟨c, [i], false⟩] → c < 8 →
      k.log = [] → k.wback = [] → s.live keySpRetire ≥ 2 → s.boot.phase = 5 → s.counter 0x0D01 p < 2 ^ 48 - 1 →
      ∃ u, exec (.patrolRead id) s = .next u ∧ u.counter 0x0D01 p = s.counter 0x0D01 p + 1 ∧
        ((u.tile p).bank b).wback = [br] ∧ ((u.tile p).bank b).log = [(br, 1)] ∧ (u.tile p).rows = (s.tile p).rows) ∧
    (∀ br rest, k.wback = br :: rest → Sparse.get 0 k.remap br = 0 → br < bankRows b →
      (∀ f ∈ Sparse.get [] k.faults br, f.bits.length ≤ 1) → ((Sparse.get [] k.faults br).map (fun f => f.cw)).Nodup →
      ∃ u, exec (.eccWriteBack id) s = .next u ∧ ((u.tile p).bank b).wback = rest.filter (fun r => r != br) ∧
        (∀ r, Sparse.get 0 (u.tile p).rows r = Sparse.get 0 (s.tile p).rows r) ∧
        Sparse.get [] ((u.tile p).bank b).faults br = (Sparse.get [] k.faults br).filter (fun f => f.permanent) ∧
        u = { s with tiles := u.tiles }) ∧
    (s.bankFree id = true → ∀ br n counted rest, k.late = (br, n, counted) :: rest →
      (Sparse.get [] k.faults (k.place b br) = [] → br ∉ k.wback →
        ∃ u, exec (.combineLateCheck id) s = .next u ∧ ((u.tile p).bank b).late = rest ∧ u = { s with tiles := u.tiles } ∧
          (u.tile p).rows = (s.tile p).rows) ∧
      (∀ c i, Sparse.get [] k.faults (k.place b br) = [⟨c, [i], false⟩] → c < 8 → counted = false → k.log = [] →
        k.wback = [] → Sparse.get false (s.tile p).fresh (rowOf b br) = false → s.live keySpRetire ≥ 2 → s.boot.phase = 5 →
        s.counter 0x0D03 p < 2 ^ 48 - 1 →
        ∃ u, exec (.combineLateCheck id) s = .next u ∧ u.counter 0x0D03 p = s.counter 0x0D03 p + 1 ∧
          ((u.tile p).bank b).late = rest.map (fun e => if e.2.1 = n then (e.1, n, true) else e) ∧
          ((u.tile p).bank b).wback = [br] ∧ (u.tile p).rows = (s.tile p).rows))

/-- A die that loses its reference clock counts the loss once, keeps its interval count and notifies Curator; the return ends it
(R277). Each tick adds one to every die's 48-bit count, and brings about the deadlines that it reaches, behind a class L holder and
behind a lock of another source (that a tick passes on an empty queue is log entry 7). -/
def Obligations.IntervalReference : Prop :=
  ∀ (s : State) (d : Nat),
    (∃ u, exec (.refClockLoss d) s = .next u ∧ (u.clock d).lost = true ∧ (u.clock d).count = (s.clock d).count ∧
      (∀ e, e ≠ d → u.clock e = s.clock e) ∧ u.tiles = s.tiles ∧ u.mem = s.mem ∧ u.arbs = s.arbs ∧
      ((s.clock d).lost = true → u = s) ∧
      ((s.clock d).lost = false → u.cur = { s.cur with notices := s.cur.notices ++ [.clockLoss d] } ∧
        (d < 32 → s.boot.phase = 5 → s.counter 0x1401 d < 2 ^ 48 - 1 → u.counter 0x1401 d = s.counter 0x1401 d + 1))) ∧
    (∃ u, exec (.refClockReturn d) s = .next u ∧ (u.clock d).lost = false ∧ (u.clock d).count = (s.clock d).count ∧
      (∀ e, e ≠ d → u.clock e = s.clock e) ∧ u = { s with clocks := u.clocks }) ∧
    (s.pending = [] → d < 32 → ∃ u, step s = .next u ∧ (u.clock d).count = ((s.clock d).count + 1) % 2 ^ 48) ∧
    (∀ (r : ResId) (q : Req), s.pending = [] → s.resDie r = d → d < 32 → s.arbs = [(r, s.arb r)] →
      (s.arb r).pending = [q] → q.overdue = false →
      let c := ((s.clock d).count + 1) % 2 ^ 48
      untilDeadline c q.deadline = 0 → NoBite s r c →
      (∀ h, (s.arb r).holder = some h → h.classP = false →
        ∃ u, step s = .next u ∧ (u.arb r).pending = [{ q with overdue := true }] ∧ (u.arb r).holder = some (Req.lapse c h)) ∧
      (∀ src, (s.arb r).holder = none → (s.arb r).locked = some src → src ≠ q.source → q.emerg = false → q.first = false →
        ∃ u, step s = .next u ∧ (u.arb r).pending = [{ q with overdue := true }] ∧ (u.arb r).holder = none ∧
          (u.arb r).locked = some src))

/-! ### Receipt and the Arcade link -/

/-- Reply `x` has been written into the slot REPLY_PROD of the ring of `s`, with the ring's PHASE and a CRC that matches, with the
interrupt that is asked for; REPLY_PROD moves on, and at the last slot it returns to 0 and PHASE turns (R289). -/
def Sys2Proof.Machine.InRing (s u : State) (x : BitVec 256) : Prop :=
  let addr := s.arc.replyBase + 32 * s.arc.replyProd
  (let y := fld (Sparse.get 0 u.mem.comp (addr / 512)).toNat (8 * (addr % 512)) 256
   fld y 0 40 = fld x.toNat 0 40 ∧ fld y 40 1 = b2n s.arc.phase ∧ fld y 41 183 = fld x.toNat 41 183 ∧
   fld y 224 32 = crc32c y 28) ∧
  (s.arc.replyProd + 1 < s.arc.replySlots → u.arc.replyProd = s.arc.replyProd + 1 ∧ u.arc.phase = s.arc.phase) ∧
  (s.arc.replySlots ≤ s.arc.replyProd + 1 → u.arc.replyProd = 0 ∧ u.arc.phase = !s.arc.phase) ∧
  (∀ r, r ≠ addr / 512 → Sparse.get 0 u.mem.comp r = Sparse.get 0 s.mem.comp r) ∧ u.tiles = s.tiles ∧
  u.tx = s.tx ++ (if s.arc.intEn then [Tx.int s.arc.intVector] else [])

/-- A command that arrives on Arcade, I3C or JTAG and passes every receipt check is queued behind the others with the next
acceptance number, in the standby's mirror too, and draws ACCEPTED with MORE 1: on Arcade in the reply ring, where it waits
for a slot while the ring is full (R289). A port that honours NO_ACCEPT sends none (R292, Table 13-8a; that JTAG, like
Causeway, does not honour it is log entry 48). -/
def Obligations.CommandAccepted : Prop :=
  ∀ (s : State) (h : BitVec 512) (payload : Bytes),
    let accepted := mkReply h stAccepted 0 true []
    let taken (i : Instr) (port : Port) : Prop :=
      s.receiptStatus port h payload 0 = (stOk, 0) →
      ∃ u c, exec i s = .next u ∧ u.cur.cmds = s.cur.cmds ++ [c] ∧ c.n = s.cur.next ∧ c.port = port ∧ c.hdr = h ∧
        c.payload = payload ∧ c.st = .queued ∧ c.wait = .none ∧ c.reply = none ∧ u.cur.next = s.cur.next + 1 ∧
        (s.cur.standby.isSome = true → u.cur.mirror = s.cur.mirror ++ [c]) ∧
        u.quiet = ({ s with cur := { s.cur with next := s.cur.next + 1 } }).quiet ∧
        (port = .arcade → hNoAccept h = false → s.arc.replySlots ≠ 0 → s.arc.waiting = [] → s.arc.full = false →
          (s.arc.replyBase + 32 * s.arc.replyProd) % 32 = 0 → InRing s u accepted ∧ u.arc.waiting = []) ∧
        (port = .arcade → hNoAccept h = false → s.arc.replySlots ≠ 0 → (s.arc.waiting ≠ [] ∨ s.arc.full = true) →
          u.arc.waiting = s.arc.waiting ++ [(.receipt, accepted)] ∧ u.mem = s.mem) ∧
        ((port = .arcade ∨ port = .i3c) → hNoAccept h = true → u.arc = s.arc ∧ u.mem = s.mem ∧ u.tx = s.tx) ∧
        (port ≠ .arcade → ¬ (port = .i3c ∧ hNoAccept h = true) →
          u.tx = s.tx ++ (if port = .i3c then [Tx.ibi (hTag h)] else []) ++ [.reply port 0 accepted])
    (2 ≤ s.boot.phase → s.arc.linkUp = true → taken (.arcadeCmd h payload) .arcade) ∧
    (2 ≤ s.boot.phase → s.boot.strip.isSome = true → s.boot.stripFailed = false → taken (.i3cPrivateWrite h payload) .i3c) ∧
    (s.fuses.debug = true → 2 ≤ s.boot.phase → s.boot.strip.isSome = true → s.boot.stripFailed = false →
      taken (.jtagCommand h payload) .jtag) ∧
    (s.fuses.debug = false → exec (.jtagCommand h payload) s = .next s)

/-- A command that fails a receipt check draws that check's status at once, is counted, and is not queued (R292): on Arcade in
the reply ring, where it waits for a slot while the ring is full (R289); on I3C behind its interrupt; on JTAG, where the debug
fuse lets it take commands; on Causeway in a frame of its conversation that is kept until acknowledged (R319). Nothing but what
carries the reply changes. -/
def Sys2Proof.Machine.CommandRefused : Prop :=
  ∀ (s : State) (h : BitVec 512) (payload : Bytes), s.boot.phase = 5 → s.counter 0x1601 0 < 2 ^ 48 - 1 →
    let counted (u : State) : Prop := u.cur = s.cur ∧ u.counter 0x1601 0 = s.counter 0x1601 0 + 1
    (∀ i port st d, s.receiptStatus port h payload 0 = (st, d) → st ≠ stOk →
      (port = .arcade ∧ i = .arcadeCmd h payload ∧ s.arc.linkUp = true ∨
        s.boot.strip.isSome = true ∧ s.boot.stripFailed = false ∧
          (port = .i3c ∧ i = .i3cPrivateWrite h payload ∨ port = .jtag ∧ i = .jtagCommand h payload ∧ s.fuses.debug = true)) →
      let r := mkReply h st d false []
      ∃ u, exec i s = .next u ∧ counted u ∧ u.quiet = s.quiet ∧ u.convs = s.convs ∧
        (port = .arcade → s.arc.replySlots ≠ 0 → s.arc.waiting = [] → s.arc.full = false →
          (s.arc.replyBase + 32 * s.arc.replyProd) % 32 = 0 → InRing s u r ∧ u.arc.waiting = []) ∧
        (port = .arcade → s.arc.replySlots ≠ 0 → (s.arc.waiting ≠ [] ∨ s.arc.full = true) →
          u.arc = { s.arc with waiting := s.arc.waiting ++ [(.receipt, r)] } ∧ u.mem = s.mem ∧ u.tx = s.tx) ∧
        (port ≠ .arcade → u.tx = s.tx ++ (if port = .i3c then [Tx.ibi (hTag h)] else []) ++ [.reply port 0 r] ∧ u.arc = s.arc ∧
          u.mem = s.mem)) ∧
    (∀ p f s' x c st d, Takes s p f ftCmd s' x → NextInLine s p x c → c.unacked.length < 64 → c.waiting = [] →
      h = BitVec.ofNat 512 (natOfBytes (x.body.take 64)) → payload = x.body.drop 64 →
      s.receiptStatus (.cwy p) h payload x.digest = (st, d) → st ≠ stOk →
      ∃ u c' k, exec (.cmdFrame p f) s = .next u ∧ counted u ∧ u.tiles = s.tiles ∧ u.mem = s.mem ∧ u.arc = s.arc ∧
        u.conv p x.src = some c' ∧ c'.rxNext = (c.rxNext + 1) % 65536 ∧ c'.unacked = c.unacked ++ [k] ∧ k.type = ftRpl ∧
        k.seq = c.txNext ∧ k.body = bytesOfNat 32 (mkReply h st d false []).toNat ∧
        ∀ q g, (q ≠ p ∨ g ≠ x.src) → u.conv q g = s.conv q g)

/-- The order of the receipt checks: a bad header CRC is answered BAD_CRC whatever else is wrong; then an undefined opcode
BAD_OPCODE; then an opcode its port's class may not issue NOT_PERMITTED_ON_PORT (Table 13-8a). -/
def Sys2Proof.Machine.ReceiptOrder : Prop :=
  ∀ (s : State) (port : Port) (h : BitVec 512) (payload : Bytes) (d : Nat),
    (crcOk64 h.toNat = false → s.receiptStatus port h payload d = (stBadCrc, 0)) ∧
    (crcOk64 h.toNat = true → hPayloadLen h = payload.length → payload.length ≤ 4096 →
      fld h.toNat 384 32 = (if payload.length = 0 then 0 else crc32cBytes payload) →
      (cmdSpec (hOpcode h) = none → s.receiptStatus port h payload d = (stBadOpcode, 0)) ∧
      ∀ m ps, cmdSpec (hOpcode h) = some (m, ps) → clsOk port.cls m = false →
        (s.receiptStatus port h payload d).1 = stNotPermitted)

/-- The receipt checks: their order, and what a refusal does. -/
def Obligations.ReceiptChecks : Prop := ReceiptOrder ∧ CommandRefused

/-- The Arcade control block (Table 13-4, R287-R289): a read of a word draws its value; a legal write sets its word's fields; one
with a reserved bit set, or of the ring's base while a command of the port is unanswered, is ignored as a whole and counted.
Each draws its completion (that an ignored write does too is log entry 55). Retraining clears the ring and withdraws every
aperture, unless a PHY block of the port has failed. A command whose reply still waits for a slot is unanswered, one refused at
receipt too. -/
def Sys2Proof.Machine.ArcadeControl : Prop :=
  ∀ (s : State) (v : Word), s.arc.linkUp = true →
    let v' := v.toNat
    let written (w : Nat) (a : Arcade) : Prop :=
      exec (.arcadeCtlWrite w (some v)) s = .next { s with arc := a, tx := s.tx ++ [.ctl w none] }
    (fld v' 52 12 = 0 → fld v' 0 9 = 0 → s.arcadeOpen = false → written 1 { s.arc with replyBase := fld v' 0 52 }) ∧
    (slotsOk (fld v' 0 16) = true → (fld v' 0 16 = 0 ∨ fld v' 32 16 < fld v' 0 16) → s.arc.waiting = [] →
      (s.arcadeOpen = false ∨ fld v' 0 16 = s.arc.replySlots) →
      written 2 { s.arc with replySlots := fld v' 0 16, replyCons := fld v' 32 16, intVector := fld v' 48 16 }) ∧
    (fld v' 4 60 = 0 → s.arc.waiting = [] → written 3 { s.arc with intEn := bit v' 0 }) ∧
    (∀ w, (w = 1 ∧ (fld v' 52 12 ≠ 0 ∨ fld v' 0 9 ≠ 0 ∨ s.arcadeOpen = true) ∨
        w = 2 ∧ fld v' 0 16 ≠ s.arc.replySlots ∧ s.arcadeOpen = true) →
      s.boot.phase = 5 → s.counter 0x1501 0 < 2 ^ 48 - 1 →
      ∃ u, exec (.arcadeCtlWrite w (some v)) s = .next u ∧ u.arc = s.arc ∧ u.counter 0x1501 0 = s.counter 0x1501 0 + 1 ∧
        u.tx = s.tx ++ [.ctl w none]) ∧
    (s.arc.waiting ≠ [] → s.arcadeOpen = true) ∧
    (∀ w, w ≤ 7 → ∃ x : Word, exec (.arcadeCtlWrite w none) s = .next { s with tx := s.tx ++ [.ctl w (some x)] } ∧
      (w = 0 → fld x.toNat 0 16 = 0x0001 ∧ fld x.toNat 16 16 = 256) ∧
      (w = 1 → x.toNat = s.arc.replyBase % 2 ^ 64) ∧
      (w = 2 → fld x.toNat 0 16 = s.arc.replySlots % 2 ^ 16 ∧ fld x.toNat 16 16 = s.arc.replyProd % 2 ^ 16 ∧
        fld x.toNat 32 16 = s.arc.replyCons % 2 ^ 16 ∧ fld x.toNat 48 16 = s.arc.intVector % 2 ^ 16) ∧
      (w = 3 → bit x.toNat 0 = s.arc.intEn ∧ bit x.toNat 1 = true ∧ bit x.toNat 2 = s.cur.ready ∧
        bit x.toNat 3 = s.cur.handover) ∧
      (4 ≤ w → x = 0)) ∧
    (∀ w x, 7 < w → exec (.arcadeCtlWrite w x) s = .next s) ∧
    (s.phyFailed 0 = true → exec .arcadeRetrain s = .next s) ∧
    (4 ≤ s.boot.phase → s.power.rails = true → s.phyFailed 0 = false → s.boot.stripFailed = false → s.arc.waiting = [] →
      exec .arcadeRetrain s = .next { s with
        arc := { s.arc with linkUp := true, replyBase := 0, replySlots := 0, replyProd := 0, replyCons := 0, phase := true },
        mem := { s.mem with apertures := [] } })

/-- A reply that waited is written into the ring; a command whose final reply it was is REPLIED (R289, R305), in the standby's
mirror too, and its entry keeps the reply (that it stands there until the journal is lost is log entry 51). -/
def Sys2Proof.Machine.RingWrite : Prop :=
  ∀ (s : State) (k : ReplyKind) (x : BitVec 256) (rest : List (ReplyKind × BitVec 256)), s.arc.waiting = (k, x) :: rest →
    s.arc.full = false → (s.arc.replyBase + 32 * s.arc.replyProd) % 32 = 0 →
    ∃ u, exec .replyRingWrite s = .next u ∧ u.arc.waiting = rest ∧ InRing s u x ∧
      (∀ n, k = .final n →
        let replied (l : List Cmd) : List Cmd := (l.filter (fun c => c.n == n)).map (fun c =>
          { c with
            st := .replied
            wait := .none })
        u.cur = { s.cur.edit (fun l => l.filter (fun c => c.n != n)) with
          replied := s.cur.replied ++ replied s.cur.cmds
          mirrorReplied := s.cur.mirrorReplied ++ (if s.cur.standby.isSome then replied s.cur.mirror else []) }) ∧
      ((∀ n, k ≠ .final n) → u.cur = s.cur)

/-- A snoop (R290): a line that no write of the device holds is answered Invalid and nothing changes; the line of a write in flight
is completed at once and answered with its data. -/
def Sys2Proof.Machine.SnoopAnswers : Prop :=
  ∀ (s : State) (line : Nat), s.arc.linkUp = true →
    (s.lineHeld line = none → exec (.arcadeSnp line) s = .next { s with tx := s.tx ++ [.srsp line none] }) ∧
    (∀ p q j k x, s.lineHeld line = some (p, q, j, k, x) →
      ∃ u, exec (.arcadeSnp line) s = .next u ∧
        u.tx = s.tx ++ [.srsp line (some (BitVec.ofNat 512 (elem 512 x.toNat (line % 8))))] ∧
        elem 512 (Sparse.get 0 u.mem.comp (line / 8)).toNat (line % 8) = elem 512 x.toNat (line % 8) ∧
        (∀ i, i < 8 → i ≠ line % 8 → elem 512 (Sparse.get 0 u.mem.comp (line / 8)).toNat i =
          elem 512 (Sparse.get 0 s.mem.comp (line / 8)).toNat i) ∧
        (∀ r, r ≠ line / 8 → Sparse.get 0 u.mem.comp r = Sparse.get 0 s.mem.comp r) ∧ u.cur = s.cur)

/-- The Arcade control block, the reply ring and the answers to snoops. -/
def Obligations.ArcadeLink : Prop := ArcadeControl ∧ RingWrite ∧ SnoopAnswers

/-! ### The commands of Curator -/

/-- sys.nop, sys.info, sys.status, sys.buf_read, sys.power and sys.telemetry answer what R303, R298, R408 and R434 say; a
reading that the block does not hold is free. sys.reset draws its reply and then resets: TYPE 1 from phase 1 on with HBM
lost, TYPE 0 from phase 2 on with HBM and the service strip kept; fuses and flashes stand (R378), and so do the accumulator
rows (R66; until phase 3 clears the tiles, log entry 4). -/
def Obligations.SystemCommands : Prop :=
  ∀ (s : State) (n : Nat) (c : Cmd),
    (Starts s n 0x0100 c → Does s (.sysNop n) c stOk 0 [s.set.gen] (fun e => e = s)) ∧
    (∀ i, Starts s n 0x0101 c → s.boot.image = some i →
      Does s (.sysInfo n) c stOk 0 [s.house + 0xB0 * 65536, i.version % 2 ^ 32, s.set.gen, s.presented] (fun e => e = s)) ∧
    (∀ a, Starts s n 0x0102 c → s.cur.active = some a →
      Does s (.sysStatus n) c stOk 0
        [a, s.cur.standby.getD 0xFFFFFFFF, (s.tiles.filter (fun e => e.2.launch.isSome)).length,
         (s.cur.cmds.filter (fun d => d.st == .queued && d.n != n)).length] (fun e => e = s)) ∧
    (Starts s n 0x0106 c → c.arg 0 % 16 = 0 →
      Does s (.sysBufRead n) c stOk 0
        ((List.range 4).map (fun i => fld (Sparse.get 0 s.cur.buf (c.arg 0 / 512)).toNat (8 * (c.arg 0 % 512) + 32 * i) 32))
        (fun e => e = s)) ∧
    (Starts s n 0x0106 c → c.arg 0 % 16 ≠ 0 → Does s (.sysBufRead n) c stBadParam 0 [] (fun e => e = s)) ∧
    (Starts s n 0x0104 c → (c.arg 0 = 0 ∨ (2000 ≤ c.arg 0 ∧ c.arg 0 ≤ 12000)) →
      let cap := if c.arg 0 = 0 then s.power.liveCap else c.arg 0
      ∃ draw, Does s (.sysPower n) c stOk 0 [min (min cap (750 * s.power.flow / 1000)) 12000, draw]
        (fun e => e = { s with power := { s.power with liveCap := cap }, free := s.free + 1 })) ∧
    (Starts s n 0x0104 c → (c.arg 0 ≠ 0 ∧ (c.arg 0 < 2000 ∨ 12000 < c.arg 0)) →
      Does s (.sysPower n) c stBadParam 0 [] (fun e => e = s)) ∧
    (∀ k x, Starts s n 0x0105 c → telemetryKind (c.arg 0) = some k → fld (c.arg 1) 12 4 = k → s.scopeOf (c.arg 1) = .ok x →
      let j := fld (c.arg 1) 0 12
      ∃ r0 r1, Does s (.sysTelemetry n) c stOk 0 [r0, r1] (fun e => e = { s with free := e.free }) ∧
        (c.arg 0 = 0x01 → r0 = s.power.inputMv % 2 ^ 32) ∧ (c.arg 0 = 0x04 → r0 = s.power.effCap) ∧ (c.arg 0 = 0x05 → r0 = s.power.flow) ∧
        (c.arg 0 = 0x10 → r0 = wrap 32 (Sparse.get 0 s.power.dieT j)) ∧
        (c.arg 0 = 0x20 → r0 = wrap 32 (Sparse.get 0 s.power.stackT j)) ∧
        (c.arg 0 = 0x11 → r0 = s.power.rail j) ∧ (c.arg 0 = 0x12 → r0 = s.power.rationOf j) ∧
        (c.arg 0 = 0x15 → r0 = (s.clock j).count % 2 ^ 32 ∧ r1 = (s.clock j).count / 2 ^ 32 % 2 ^ 16) ∧
        (c.arg 0 = 0x16 → r0 = b2n (s.clock j).lost)) ∧
    (Starts s n 0x0103 c →
      ∃ u, exec (.sysReset n) s = .next u ∧ u.cur = Curator.reset ∧ u.counters = [] ∧ u.rng = Rng.reset ∧
        u.set = Settings.reset ∧ u.inv = Inventory.reset ∧ u.convs = [] ∧ u.fuses = s.fuses ∧
        u.boot.flash0 = s.boot.flash0 ∧ u.boot.flash1 = s.boot.flash1 ∧
        (c.arg 0 = 1 → u.boot.phase = 1 ∧ u.boot.strip = none) ∧
        (c.arg 0 ≠ 1 → u.boot.phase = 2 ∧ u.boot.strip = s.boot.strip ∧ u.boot.second = s.boot.second ∧
          u.mem.hbm = s.mem.hbm) ∧
        (Sparse.wf Tile.reset s.tiles = true → ∀ p r, Sparse.get 0 (u.tile p).rows r =
          if 0x8000 ≤ r then Sparse.get 0 (s.tile p).rows r else 0) ∧
        (c.port = .i3c → s.boot.stripFailed = false → u.tx = s.tx ++ [.ibi (fld (mkReply c.hdr stOk 0 false []).toNat 0 16),
          .reply .i3c 0 (mkReply c.hdr stOk 0 false [])]))

/-- The random service (R251-R255, R259): a refill moves the block that a slot's core would make next into its buffer;
rng.read reports SEED, SALT, algorithm 1, KEY_GEN and KEY_CHECK; rng.write, while no launch runs, loads the key derived from
the new SEED and SALT, counts KEY_GEN on and empties every buffer. -/
def Obligations.RandomService : Prop :=
  (∀ (s : State) (t p slot : Nat), s.phys t = some p → Sparse.get 0 (s.tile p).rngNext slot ≠ 0 →
    ∃ u, exec (.rngRefill t slot) s = .next u ∧
      Sparse.get 0 (u.tile p).rngTag slot = Sparse.get 0 (s.tile p).rngNext slot ∧
      Sparse.get 0 (u.tile p).rngNext slot = 0 ∧
      (∀ k, k ≠ slot → Sparse.get 0 (u.tile p).rngTag k = Sparse.get 0 (s.tile p).rngTag k ∧
        Sparse.get 0 (u.tile p).rngNext k = Sparse.get 0 (s.tile p).rngNext k) ∧
      u = { s with tiles := u.tiles } ∧ (∀ q, q ≠ p → u.tile q = s.tile q) ∧
      u.tile p = { s.tile p with rngTag := (u.tile p).rngTag, rngNext := (u.tile p).rngNext }) ∧
  (∀ (s : State) (n : Nat) (c : Cmd), Starts s n 0x0700 c →
    Reports s (.rngRead n) c (c.arg 0) [row s.rng.bits] [] ∧
    fld s.rng.bits 0 64 = s.rng.seed.toNat ∧ fld s.rng.bits 64 64 = s.rng.salt.toNat ∧ fld s.rng.bits 128 8 = 1 ∧
    fld s.rng.bits 144 16 = s.rng.keyGen % 2 ^ 16 ∧ fld s.rng.bits 160 32 = chacha8 s.rng.key 0 % 2 ^ 32) ∧
  (∀ (s : State) (n : Nat) (c : Cmd), Starts s n 0x0701 c → Sparse.wf Tile.reset s.tiles = true →
    let seed := BitVec.ofNat 64 (c.arg 0)
    let salt := BitVec.ofNat 64 (c.arg 1)
    let key := deriveKey seed salt
    (s.anyLaunch = false →
      Does s (.rngWrite n) c stOk 0 [(s.rng.keyGen + 1) % 65536, chacha8 key 0 % 2 ^ 32] (fun e =>
        e = { s with rng := ⟨seed, salt, (s.rng.keyGen + 1) % 65536, key⟩, tiles := e.tiles } ∧
        ∀ p, e.tile p = { s.tile p with rngTag := [], rngNext := [] })) ∧
    (s.anyLaunch = true → Does s (.rngWrite n) c stConflict 0 [] (fun e => e = s)))

/-- The settings (R377, R396, R397): cfg.read answers a key's live value and what is staged for it; cfg.write stages a value
in its key's range and changes no live value; cfg.commit of the present generation, while no launch runs, makes every staged
value live and the others stand, as the next generation, with the digest of R399 and the house number of the settings;
cfg.discard drops what is staged. -/
def Obligations.SettingsCommands : Prop :=
  ∀ (s : State) (n : Nat) (c : Cmd),
    (Starts s n 0x0200 c → keyKnown (c.arg 0) = true →
      ∃ x y, Does s (.cfgRead n) c stOk 0 [lo32 (s.live (c.arg 0)), hi32 (s.live (c.arg 0)), x, y]
          (fun e => e = { s with free := e.free }) ∧
        ∀ v, Sparse.get none s.set.staged (c.arg 0) = some v → x = lo32 v ∧ y = hi32 v) ∧
    (Starts s n 0x0201 c → keyKnown (c.arg 0) = true → s.keyValueOk (c.arg 0) (c.arg 1) = true →
      Does s (.cfgWrite n) c stOk 0 [] (fun e =>
        e = { s with set := { s.set with staged := e.set.staged } } ∧
        ∀ k, Sparse.get none e.set.staged k = if k = c.arg 0 then some (c.arg 1) else Sparse.get none s.set.staged k)) ∧
    (Starts s n 0x0201 c → keyKnown (c.arg 0) = true → s.keyValueOk (c.arg 0) (c.arg 1) = false →
      Does s (.cfgWrite n) c stBadParam 16 [] (fun e => e = s)) ∧
    (Starts s n 0x0202 c → c.arg 0 = s.set.gen → s.anyLaunch = false → Sparse.wf none s.set.staged = true →
      ∃ e u, exec (.cfgCommit n) s = .next u ∧
        Answered e u c stOk 0 [e.set.gen, lo32 e.set.digest.toNat, hi32 e.set.digest.toNat] ∧
        e = { s with set := e.set, power := { s.power with liveCap := e.live keyPowerCap } } ∧
        e.set.gen = (s.set.gen + 1) % 2 ^ 32 ∧ e.set.staged = [] ∧ e.house = e.live keyHouse ∧
        e.set.digest = sha384Num (digestMsg s.curatorVersion e.set.live) ∧
        ∀ k, e.live k = match Sparse.get none s.set.staged k with
          | some v => v
          | none => s.live k) ∧
    (Starts s n 0x0202 c → c.arg 0 ≠ s.set.gen → Does s (.cfgCommit n) c stStale 0 [] (fun e => e = s)) ∧
    (Starts s n 0x0203 c →
      Does s (.cfgDiscard n) c stOk 0 [] (fun e => e = { s with set := { s.set with staged := [] } }))

/-- Companion apertures (R291): one that meets no other and lies in the tier is registered; a deleted one is unbacked at once
and the final reply comes when no transfer issued to it is left; deleting a number that names none answers 0. -/
def Sys2Proof.Machine.Apertures : Prop :=
  ∀ (s : State) (n : Nat) (c : Cmd),
    (Starts s n 0x0204 c → c.arg 2 ≠ 0 → c.arg 1 + c.arg 2 ≤ 2 ^ 43 →
      (∀ a ∈ s.mem.apertures, a.num ≠ c.arg 0 ∧ extentsMeet (c.arg 1) (c.arg 2) 1 a.base a.rows 1 = false) →
      Does s (.cfgApertureAdd n) c stOk 0 [] (fun e =>
        e = { s with mem := { s.mem with apertures := s.mem.apertures ++ [⟨c.arg 0, c.arg 1, c.arg 2⟩] } })) ∧
    (Starts s n 0x0205 c → (∀ a ∈ s.mem.apertures, a.num ≠ c.arg 0) →
      Does s (.cfgApertureDel n) c stOk 0 [0] (fun e => e = s)) ∧
    (∀ a, Starts s n 0x0205 c → s.mem.apertures.find? (fun x => x.num == c.arg 0) = some a →
      let left := s.mem.apertures.filter (fun x => x.num != a.num)
      (s.apertureBusy a = false →
        Does s (.cfgApertureDel n) c stOk 0 [1] (fun e => e = { s with mem := { s.mem with apertures := left } })) ∧
      (s.apertureBusy a = true →
        ∃ u, exec (.cfgApertureDel n) s = .next u ∧ u.mem.apertures = left ∧ Waits u n (.aperture a.num) ∧
          (a, n) ∈ u.mem.leaving)) ∧
    (∀ a m x, s.mem.leaving.find? (fun e => e.1.num == a && !s.apertureBusy e.1) = some x → x.2 = m → s.cmd m = some c →
      Does s (.apertureDrained a) c stOk 0 [1] (fun e =>
        e = { s with mem := { s.mem with leaving := s.mem.leaving.filter (fun y => y != x) } }))

/-- Programs and launches (R246, R300, R301, R303). prog.load copies its rows to every named tile and answers by the checks of
R186; prog.put writes its payload; prog.copy copies rows between places that do not meet; prog.launch starts every named tile
from the record, with registers, signals and draw cursors cleared, or none, once the rows of the program have been read and
checked; prog.cancel stops the launches of its LAUNCH_ID
and answers how many. -/
def Obligations.ProgramCommands : Prop :=
  ∀ (s : State) (n : Nat) (c : Cmd),
    (∀ r, Starts s n 0x0300 c → decodeAddr (c.arg 0) = some (.hbm r) → c.arg 4 ≤ s.room (.hbm r) →
      c.arg 3 + c.arg 4 ≤ 0x6000 → c.arg 3 < 0x6000 →
      (∀ t ∈ span (c.arg 1) (c.arg 2), ∃ p, s.loadable t = some p ∧ s.running p = false ∧
        CleanRows s p (c.arg 3) (c.arg 4)) → (∀ i, i < c.arg 4 → s.hbmFaultsAt (r + i) = []) →
      let x := s.loadTiles (.hbm r) (c.arg 3) (c.arg 4) (span (c.arg 1) (c.arg 2))
      (x.2 = none → Does s (.progLoad n) c stOk 0 [] (fun e => e = x.1 ∧
        ∀ t ∈ span (c.arg 1) (c.arg 2), ∀ p, s.phys t = some p →
          (∀ i, i < c.arg 4 → Sparse.get 0 (e.tile p).rows (c.arg 3 + i) = Sparse.get 0 s.mem.hbm (r + i)) ∧
          ∀ i, ¬ (c.arg 3 ≤ i ∧ i < c.arg 3 + c.arg 4) →
            Sparse.get 0 (e.tile p).rows i = Sparse.get 0 (s.tile p).rows i)) ∧
      (∀ st b t, x.2 = some (st, b, t) → Does s (.progLoad n) c st b [t] (fun e => e = x.1))) ∧
    (∀ p, Starts s n 0x0301 c → 512 ≤ c.payload.length → c.payload.length % 512 = 0 →
      c.arg 1 + c.payload.length / 512 ≤ 0x6000 → s.loadable (c.arg 0) = some p → s.running p = false →
      Does s (.progPut n) c stOk 0 [] (fun e =>
        (∀ i, i < c.payload.length / 512 →
          (Sparse.get 0 (e.tile p).rows (c.arg 1 + i)).toNat = elem 4096 (natOfBytes c.payload) i) ∧
        (∀ i, ¬ (c.arg 1 ≤ i ∧ i < c.arg 1 + c.payload.length / 512) →
          Sparse.get 0 (e.tile p).rows i = Sparse.get 0 (s.tile p).rows i) ∧
        e = { s with tiles := e.tiles } ∧ ∀ q, q ≠ p → e.tile q = s.tile q)) ∧
    (∀ a b, Starts s n 0x0302 c → decodeAddr (c.arg 0) = some a → decodeAddr (c.arg 1) = some b → a.tier ≠ 4 →
      b.tier ≠ 4 → c.arg 2 ≤ s.room a → c.arg 2 ≤ s.room b → placesMeet a (c.arg 2) 1 b (c.arg 2) 1 = false →
      (∀ t r p, b = .scr t r → s.phys t = some p → s.running p = false) →
      Does s (.progCopy n) c stOk 0 [c.arg 2] (fun e => e = s.copyRows a b (c.arg 2) ∧
        ∀ x y, a = .hbm x → b = .hbm y → (∀ i, i < c.arg 2 → s.hbmFaultsAt (x + i) = []) →
          (∀ i, i < c.arg 2 → Sparse.get 0 e.mem.hbm (y + i) = Sparse.get 0 s.mem.hbm (x + i)) ∧
          ∀ k, ¬ (y ≤ k ∧ k < y + c.arg 2) → Sparse.get 0 e.mem.hbm k = Sparse.get 0 s.mem.hbm k)) ∧
    (Starts s n 0x0303 c → c.payload.length = 64 →
      let x := natOfBytes c.payload
      let tiles := span (c.arg 0) (c.arg 1)
      let r := (s.launchFault x tiles).1
      ((s.launchFault x tiles).2 = none →
        ∃ u, exec (.progLaunch n) s = .next u ∧ Waits u n (.launch tiles []) ∧ u.mem = s.mem ∧ u.inv = r.inv ∧
          ∀ t ∈ tiles, ∀ p, r.phys t = some p →
            (∃ la, (u.tile p).launch = some la ∧ la.progBase = fld x 0 16 ∧ la.progRows = fld x 16 16 ∧
              la.compat = bit x 100 ∧ la.compRow = fld x 104 16 ∧ la.compRows = fld x 120 16 ∧
              la.launchId = fld x 136 32 ∧ la.cmd = n ∧ la.entries = 0 ∧ la.stopping = none) ∧
            (∀ l, l < 4 → ((u.tile p).list l).enabled = bit x (96 + l) ∧ ((u.tile p).list l).ended = false ∧
              (bit x (96 + l) = true → ((u.tile p).list l).pc = fld x (32 + 16 * l) 16) ∧ ∀ i, u.x p l i = 0) ∧
            (∀ i, (u.tile p).signal i = 0) ∧ (u.tile p).cursors = [] ∧ (u.tile p).rows = (r.tile p).rows ∧
            (u.tile p).groups = (s.tile p).groups) ∧
      (∀ st d t, (s.launchFault x tiles).2 = some (st, d, t) →
        Does s (.progLaunch n) c st d [0, t] (fun e => e = r))) ∧
    (Starts s n 0x0304 c →
      (∀ t ∈ span (c.arg 0) (c.arg 1), ∃ p, s.namedTile t = some p ∧
        ∀ la, (s.tile p).launch = some la → la.launchId ≠ c.arg 2 ∨ la.stopping ≠ none) →
      Does s (.progCancel n) c stOk 0 [0] (fun e => e = s)) ∧
    (∀ p la, Starts s n 0x0304 c → c.arg 1 = 1 → s.namedTile (c.arg 0) = some p → (s.tile p).launch = some la →
      la.launchId = c.arg 2 → la.stopping = none → (∀ l, l < 4 → ((s.tile p).list l).waiting = []) →
      (∀ q, q < 8 → (s.queue p q).owner = none) →
      Does s (.progCancel n) c stOk 0 [1] (fun e =>
        (e.tile p).launch = some { la with stopping := some stCancelled } ∧
        (∀ l, l < 4 → ((s.tile p).list l).enabled = true → ((e.tile p).list l).ended = true) ∧
        (e.tile p).rows = (s.tile p).rows ∧ ∀ q, q ≠ p → e.tile q = s.tile q))

/-- Windows and queues by command (R212-R220, R224, R225, R302): win.open opens by the checks of R214 with the next generation;
win.close clears all but GEN; win.return frees consumed credits; win.read and stream.qread report the entry and the register;
stream.qwrite sets a queue that is idle; win.credit is answered from the pool, and stays for what is pending. -/
def Obligations.WindowAndQueueCommands : Prop :=
  ∀ (s : State) (n p : Nat) (c : Cmd), s.namedTile (c.arg 0) = some p →
    let w := s.win p (c.arg 1)
    let x := natOfBytes c.payload
    let only (e : State) : Prop := e = { s with tiles := e.tiles } ∧ (∀ q, q ≠ p → e.tile q = s.tile q) ∧
      (∀ m, m ≠ c.arg 1 → e.win p m = s.win p m) ∧ e.tile p = { s.tile p with windows := (e.tile p).windows }
    (Starts s n 0x0400 c → c.payload.length = 32 →
      Does s (.winOpen n) c (openStatus (s.tile p) (c.arg 1) x) 0 [] (fun e => only e ∧
        e.win p (c.arg 1) = if openStatus (s.tile p) (c.arg 1) x = stOk then windowOf x ((w.gen + 1) % 256) else w)) ∧
    (Starts s n 0x0401 c → (w.isOpen = true → w.ledger = []) →
      Does s (.winClose n) c stOk 0 [] (fun e => only e ∧
        e.win p (c.arg 1) = if w.isOpen = true then { Window.reset with gen := w.gen } else w)) ∧
    (Starts s n 0x0402 c → w.isOpen = true → w.ledger = [] → c.arg 2 ≤ w.consumed →
      Does s (.winReturn n) c stOk 0 [] (fun e => only e ∧
        e.win p (c.arg 1) = { w with consumed := w.consumed - c.arg 2, pool := w.pool + c.arg 2 })) ∧
    (Starts s n 0x0403 c → Reports s (.winRead n) c (c.arg 2) [row w.bits] []) ∧
    (Starts s n 0x0500 c → Reports s (.streamQread n) c (c.arg 2) [row (s.queueBits p (c.arg 1))] []) ∧
    (Starts s n 0x0501 c → c.payload.length = 32 → s.queueWriteStatus p (c.arg 1) x = stOk →
      Does s (.streamQwrite n) c stOk 0 [] (fun e =>
        e = { s with tiles := e.tiles } ∧ (∀ q, q ≠ p → e.tile q = s.tile q) ∧
        e.queue p (c.arg 1) = (s.queue p (c.arg 1)).write x ∧ (∀ q, q ≠ c.arg 1 → e.queue p q = s.queue p q) ∧
        e.tile p = { s.tile p with queues := (e.tile p).queues })) ∧
    (∀ src sent remote, Starts s n 0x0404 c → s.creditSource c = .ok (src, sent, remote) → c.arg 6 = 0 →
      w.isOpen = true → w.permits s.house src = true → (w.entryOf src = none → w.ledger.length < 8) →
      (∀ y, w.entryOf src = some y → y.want = 0) →
      (c.arg 3 = 0 ∨ c.arg 2 ≤ w.pool →
        Does s (.winCredit n) c stOk 0 [min (c.arg 2) w.pool, w.gen + w.rows * 256] (fun e => only e ∧
          (e.win p (c.arg 1)).pool = w.pool - min (c.arg 2) w.pool ∧ (e.win p (c.arg 1)).gen = w.gen)) ∧
      (c.arg 3 = 1 → w.pool < c.arg 2 →
        ∃ u y, exec (.winCredit n) s = .next u ∧ Waits u n .credit ∧ (u.win p (c.arg 1)).pool = 0 ∧
          (u.win p (c.arg 1)).entryOf src = some y ∧ y.want = c.arg 2 - w.pool ∧ y.path = .cmd n ∧
          (∀ m, m ≠ c.arg 1 → u.win p m = s.win p m) ∧ u.tile p = { s.tile p with windows := (u.tile p).windows } ∧
          ∀ q, q ≠ p → u.tile q = s.tile q))

/-- Counters (R423-R432): ctr.read answers the saturating sum over the scope's instances and their number; ctr.clear sets
exactly those to zero; ctr.snapshot reports a header and an entry for every instance that is not zero. -/
def Obligations.CounterCommands : Prop :=
  ∀ (s : State) (n : Nat) (c : Cmd),
    (∀ h x, Starts s n 0x0800 c → counterHome (c.arg 0) = some h → s.scopeOf (c.arg 1) = .ok x → x.instances h ≠ [] →
      let v := min (((x.instances h).map (fun i => s.counter (c.arg 0) i)).sum) (2 ^ 48 - 1)
      Does s (.ctrRead n) c stOk 0 [v % 2 ^ 32, v / 2 ^ 32, (x.instances h).length, 0] (fun e => e = s)) ∧
    (∀ h x, Starts s n 0x0802 c → counterHome (c.arg 0) = some h → s.scopeOf (c.arg 1) = .ok x → x.instances h ≠ [] →
      (∀ i ∈ x.instances h, i < 2 ^ 20) →
      Does s (.ctrClear n) c stOk 0 [(x.instances h).length] (fun e => e = { s with counters := e.counters } ∧
        (∀ i ∈ x.instances h, e.counter (c.arg 0) i = 0) ∧
        ∀ code i, i < 2 ^ 20 → (code ≠ c.arg 0 ∨ i ∉ x.instances h) → e.counter code i = s.counter code i)) ∧
    (∀ x, Starts s n 0x0802 c → c.arg 0 = 0xFFFFFFFF → s.scopeOf (c.arg 1) = .ok x →
      (∃ e ∈ catalogue, x.instances e.2 ≠ []) →
      ∃ k, Does s (.ctrClear n) c stOk 0 [k] (fun e => e = { s with counters := e.counters } ∧
        ∀ m ∈ catalogue, ∀ i ∈ x.instances m.2, e.counter m.1 i = 0)) ∧
    (∀ x, Starts s n 0x0801 c → s.scopeOf (c.arg 0) = .ok x → (∀ m, x ≠ .stack m) →
      let es := s.snapshot x
      ∃ rows, Reports s (.ctrSnapshot n) c (c.arg 1) rows [es.length, rows.length] ∧ rows.length = 1 + cdiv es.length 32 ∧
        (∀ h, rows[0]? = some h → crcOkRow h.toNat = true ∧ fld h.toNat 0 16 = 1 ∧ fld h.toNat 16 16 = c.arg 0 % 2 ^ 16 ∧
          fld h.toNat 32 32 = es.length % 2 ^ 32 ∧ fld h.toNat 64 32 = s.set.gen % 2 ^ 32 ∧
          fld h.toNat 96 14 = s.house % 2 ^ 14) ∧
        (∀ k e y, es[k]? = some e → rows[1 + k / 32]? = some y → elem 128 y.toNat (k % 32) = e.bits % 2 ^ 128) ∧
        ∀ m ∈ catalogue, ∀ i ∈ x.instances m.2, s.counter m.1 i ≠ 0 →
          ∃ e ∈ es, e.code = m.1 ∧ (e.scope, e.ptile) = s.snapName m.2 i)

/-- The rows of a record's groups that a restore copies, of a tile block at row `off` of a context in HBM. -/
def Sys2Proof.Machine.savedGroupRows (s : State) (r off : Nat) : List Nat :=
  (ctxRecords ((List.range 4).map (fun a => (Sparse.get 0 s.mem.hbm (r + off + 2 + a)).toNat))).flatMap ctxRecordRows

/-- Contexts (R372-R375). ctx.save of tiles that are at rest, with no fault in a row that is saved, writes a context of its whole
length whose header states it and nothing beside it; ctx.check answers what the first failing check finds, with the length as
RESULT0; ctx.restore of one tile that passes every check copies rows 0x0000-0x5FFF from its block, unless a row of the block
is not backed: then it ends with BAD_PARAM. -/
def Obligations.ContextCommands : Prop :=
  ∀ (s : State) (n : Nat) (c : Cmd),
    (∀ r, Starts s n 0x0600 c → s.saveFault (span (c.arg 0) (c.arg 1)) = none → decodeAddr (c.arg 2) = some (.hbm r) →
      (∀ t ∈ span (c.arg 0) (c.arg 1), ∀ p, s.phys t = some p →
        CleanRows s p 0 0x6000 ∧ ∀ k ∈ (s.tile p).groupRowList, (s.tile p).cleanAt k = true) →
      let total := 1 + cdiv (c.arg 1) 64 + (((span (c.arg 0) (c.arg 1)).map (fun t => 24582 + match s.phys t with
        | some p => (s.tile p).groupRowList.length
        | none => 0)).sum)
      total ≤ c.arg 3 → total ≤ s.room (.hbm r) →
      Does s (.ctxSave n) c stOk 0 [total] (fun e =>
        let h := (Sparse.get 0 e.mem.hbm r).toNat
        crcOkRow h = true ∧ fld h 0 16 = 1 ∧ fld h 16 10 = c.arg 0 % 2 ^ 10 ∧ fld h 26 11 = c.arg 1 % 2 ^ 11 ∧
        fld h 64 64 = total % 2 ^ 64 ∧ fld h 128 384 = s.set.digest.toNat ∧ fld h 512 64 = s.rng.seed.toNat ∧
        fld h 576 64 = s.rng.salt.toNat ∧ (∀ k, ¬ (r ≤ k ∧ k < r + total) → Sparse.get 0 e.mem.hbm k = Sparse.get 0 s.mem.hbm k) ∧
        e.tiles = s.tiles)) ∧
    (Starts s n 0x0602 c →
      let k := s.checkContext (c.arg 0) (c.arg 1) none
      ∃ u, exec (.ctxCheck n) s = .next u ∧ Answered k.1 u c k.2.status k.2.detail [lo32 k.2.total]) ∧
    (Starts s n 0x0601 c →
      let k := s.checkContext (c.arg 2) (c.arg 3) (some (c.arg 0, c.arg 1))
      (k.2.status ≠ stOk → ∃ u, exec (.ctxRestore n) s = .next u ∧ Answered k.1 u c k.2.status k.2.detail []) ∧
      ∀ r p off, decodeAddr (c.arg 2) = some (.hbm r) → c.arg 1 = 1 → s.phys (c.arg 0) = some p →
        k.2.status = stOk → k.2.offsets = [off] → (∀ i, r ≤ i → s.hbmFaultsAt i = []) →
        ((s.ent p).state = tsDrained ∨ (s.ent p).state = tsInService) → s.tileBusy p = false →
        (∀ w, (s.win p w).ledger = []) →
        (off + 24582 + (savedGroupRows s r off).length ≤ s.room (.hbm r) →
          Does s (.ctxRestore n) c stOk 0 [] (fun e =>
            (∀ i, i < 24576 → Sparse.get 0 (e.tile p).rows i = Sparse.get 0 s.mem.hbm (r + off + 6 + i)) ∧
            e.mem.hbm = s.mem.hbm ∧ ∀ q, q ≠ p → e.tile q = s.tile q)) ∧
        (6 ≤ s.room (.hbm r) - off → s.room (.hbm r) < off + 24582 + (savedGroupRows s r off).length →
          ∃ e, Does s (.ctxRestore n) c stBadParam 0 [] (fun x => x = e) ∧ e.mem.hbm = s.mem.hbm ∧
            ∀ q, q ≠ p → e.tile q = s.tile q))

/-- Tiles that leave and enter service (R342-R350): inv.drain sets a tile DRAINING, and its final reply comes when the tile, with
no launch and idle queues, has closed its windows and is DRAINED, a Curator running to send it (R307); inv.recal sets RECAL and wipes it (that it does so as it
starts is log entry 52), and tests that find
nothing new return it to DRAINED with its widths; inv.retire_tile gives its number and its rows to the nearest spare, or
leaves the number vacant. The clauses that close windows are of a tile at which no credit is held or asked for. -/
def Obligations.TileService : Prop :=
  ∀ (s : State) (n p : Nat) (c : Cmd), s.phys (c.arg 0) = some p → s.logical p = some (c.arg 0) →
    let t := c.arg 0
    (Starts s n 0x0901 c → (s.ent p).state ≤ 1 →
      ∃ u, exec (.invDrain n) s = .next u ∧ u.ent p = { s.ent p with state := tsDraining } ∧ Waits u n (.drain t) ∧
        u.tiles = s.tiles ∧ u.mem = s.mem ∧ ∀ q, q ≠ p → u.ent q = s.ent q) ∧
    (Starts s n 0x0901 c → (s.ent p).state = tsDrained → Does s (.invDrain n) c stOk 0 [] (fun e => e = s)) ∧
    (s.cmd c.n = some c → s.cur.cmds.filter (fun d => d.wait == .drain t) = [c] → (s.ent p).state = tsDraining →
      s.cur.ready = true → s.running p = false → s.queuesIdle p = true → (∀ w, (s.win p w).ledger = []) → s.inv.failing = [] →
      Does s (.tileDrained t) c stOk 0 [] (fun e => e.ent p = { s.ent p with state := tsDrained } ∧
        (∀ w, w < 16 → (e.win p w).isOpen = false) ∧ (e.tile p).rows = (s.tile p).rows ∧
        (e.tile p).groups = (s.tile p).groups ∧ ∀ q, q ≠ p → e.tile q = s.tile q)) ∧
    (Starts s n 0x0902 c → (s.ent p).state = tsDrained → (∀ w, (s.win p w).ledger = []) →
      ∃ u, exec (.invRecal n) s = .next u ∧ (u.ent p).state = tsRecal ∧ Waits u n (.recal t) ∧
        (∀ r, Sparse.get 0 (u.tile p).rows r = 0) ∧ (u.tile p).groups = [] ∧ (u.tile p).queues = [] ∧
        ∀ q, q ≠ p → u.tile q = s.tile q) ∧
    (s.cmd c.n = some c → s.cur.cmds.filter (fun d => d.wait == .recal t) = [c] → (s.ent p).state = tsRecal →
      s.cur.ready = true → s.testCause p ⟨[], [], [], 0, false⟩ = none →
      ∃ widths, Does s (.recalDone t ⟨[], [], [], 0, false⟩) c stOk 0 [widths, 0, 0, 0] (fun e =>
        (e.ent p).state = tsDrained ∧ (e.ent p).logical = t ∧
        (e.ent p).widths = (List.range 4).map (fun a => widthCode (s.badColumns p a).eraseDups.length) ∧
        widths = widthsWord (e.ent p) ∧ e.inv.records = s.inv.records)) ∧
    (∀ q, Starts s n 0x0903 c → (s.ent p).state = tsDrained → s.nearestSpare p = some q →
      (∀ r, rowExists r = true → (s.tile p).cleanAt r = true ∧ (s.tile q).cleanAt r = true) →
      (∀ x ∈ (s.tile p).rows, rowExists x.1 = true) → (∀ w, (s.win p w).ledger = []) →
      Does s (.invRetireTile n) c stOk 0 [q, 1] (fun e =>
        (e.ent q).logical = t ∧ (e.ent q).role = roPresented ∧ (e.ent q).state = tsDrained ∧
        (e.ent p).role = roRetired ∧ (e.ent p).cause = 6 ∧ (e.tile p).rows = [] ∧
        (∀ r, rowExists r = true → (readRow e q r).2 = (readRow s p r).2) ∧ (e.tile q).groups = (s.tile p).groups ∧
        (e.tile q).queues = (s.tile p).queues ∧ (e.tile q).cursors = (s.tile p).cursors ∧ (e.tile q).windows = [] ∧
        ∀ r, r ≠ p → r ≠ q → e.tile r = s.tile r ∧ e.ent r = s.ent r)) ∧
    (Starts s n 0x0903 c → (s.ent p).state = tsDrained → s.nearestSpare p = none → (∀ w, (s.win p w).ledger = []) →
      Does s (.invRetireTile n) c stOk 0 [0xFFFFFFFF, 0] (fun e =>
        (e.ent p).role = roRetired ∧ (e.ent p).cause = 6 ∧ (e.tile p).rows = [] ∧ ∀ q, q ≠ p → e.tile q = s.tile q))

/-- inv.present (R345): a DRAINED tile is IN_SERVICE again, and nothing else changes; on a tile in any other state the
command is refused with CONFLICT and nothing changes. A tile that Curator has noted for replacement (R348) is replaced by the
nearest spare first, and the spare is presented (log entry 53: DEDUCED). -/
def Obligations.PresentReturnsTile : Prop :=
  ∀ (s : State) (n p : Nat) (c : Cmd), s.phys (c.arg 0) = some p → Starts s n 0x0904 c →
    (∀ f q, (s.ent p).state = tsDrained → s.inv.failing.find? (fun f => f.1 == c.arg 0) = some f → s.nearestSpare p = some q →
      Sparse.wf TileEnt.reset s.inv.tiles = true → (∀ r, r ≠ p → s.logical r ≠ some (c.arg 0)) →
      (∀ w, (s.win p w).ledger = []) →
      Does s (.invPresent n) c stOk 0 [] (fun e => (e.ent q).logical = c.arg 0 ∧ (e.ent q).role = roPresented ∧
        (e.ent q).state = tsInService ∧ (e.ent p).role = roRetired ∧ (e.ent p).cause = f.2.1 ∧
        ∀ r, r ≠ p → r ≠ q → e.tile r = s.tile r ∧ e.ent r = s.ent r)) ∧
    ((s.ent p).state = tsDrained → (∀ f ∈ s.inv.failing, f.1 ≠ c.arg 0) →
      Does s (.invPresent n) c stOk 0 [] (fun e => e.ent p = { s.ent p with state := tsInService } ∧
        e = { s with inv := e.inv } ∧ ∀ q, q ≠ p → e.ent q = s.ent q)) ∧
    ((s.ent p).state ≠ tsDrained → Does s (.invPresent n) c stConflict 0 [] (fun e => e = s))

/-- The spare that replaces a tile (R347): of the tiles with ROLE SPARE the one with the fewest mesh moves, avenues and
streets apart added up, on whichever die; of those the lowest physical index; none only if no tile is a spare. -/
def Obligations.NearestSpareChosen : Prop :=
  ∀ (s : State) (p : Nat),
    let far (q : Nat) := absDiff (p % 48) (q % 48) + absDiff (p / 48) (q / 48)
    (∀ q, s.nearestSpare p = some q ↔ (q < 1152 ∧ (s.ent q).role = roSpare ∧
      ∀ r, r < 1152 → (s.ent r).role = roSpare → far q < far r ∨ (far q = far r ∧ q ≤ r))) ∧
    (s.nearestSpare p = none ↔ ∀ r, r < 1152 → (s.ent r).role ≠ roSpare)

/-- A write of `n` rows from row `i` of the Holdings image is made (R388): the first flash that is used, if there is one, does not
fail; `fail1` and `fail2` say that the flashes report a failure again when the write is retried. -/
def Sys2Proof.Machine.Programs (s : State) (i n : Nat) (fail1 fail2 : Bool) : Prop :=
  (if s.boot.flash0.present then fail1 = false else s.boot.second = true ∧ fail2 = false) ∧
  (s.flash s.firstFlash).fails i n = false

/-- Rows, pages and the Inventory image (R338-R341, R353, R355, R386, R388): inv.retire_row gives a row's contents to the
lowest spare of the bank that was never taken and records it, and without one answers NO_RESOURCE; inv.relocate gives a page of
HBM the channel's next frame, with its rows as they are read; inv.read reports the live image; inv.record and the periodic
flush write the image into the Holdings copy not in use, name it in the other directory copy, and then nothing is pending. A
persistent failure of the first flash, or of the service strip, leaves the records pending. -/
def Obligations.InventoryRecords : Prop :=
  ∀ (s : State) (n : Nat) (c : Cmd),
    (∀ p, Starts s n 0x0905 c → rowExists (c.arg 1) = true → s.phys (c.arg 0) = some p →
      let b := (bankOf (c.arg 1)).1
      let br := (bankOf (c.arg 1)).2
      let x := (s.tile p).bank b
      (x.nextSpare b br = none → Does s (.invRetireRow n) c stNoResource 0 [] (fun e => e = s)) ∧
      (∀ k, x.nextSpare b br = some k → (s.tile p).cleanAt (c.arg 1) = true → s.inv.records.length < 16384 →
        k < bankSpares b ∧ k ∉ x.taken ∧ (∀ j, j < k → j ∈ x.taken) ∧
        Does s (.invRetireRow n) c stOk 0 [] (fun e =>
          Sparse.get 0 ((e.tile p).bank b).remap br = k + 1 ∧ ((e.tile p).bank b).taken = k :: x.taken ∧
          (∀ i, i ≠ br → Sparse.get 0 ((e.tile p).bank b).remap i = Sparse.get 0 x.remap i) ∧
          (∀ r, Sparse.get 0 (e.tile p).rows r = Sparse.get 0 (s.tile p).rows r) ∧
          e.inv.records = s.inv.records ++ [⟨if b < 16 then 2 else 3, true, p,
            if b < 16 then b + 16 * br else (b - 16) / 4 + 4 * ((b - 16) % 4) + 16 * br, k⟩] ∧
          e.inv.unsaved = s.inv.unsaved + 1))) ∧
    (∀ r, Starts s n 0x0906 c → decodeAddr (c.arg 0) = some (.hbm r) → r < hbmRows →
      (s.channel (hbmChannel r)).taken < 768 → s.inv.records.length < 16384 →
      let k := (s.channel (hbmChannel r)).taken
      Does s (.invRelocate n) c stOk 0 [hbmChannel r, hbmPage r, k] (fun e =>
        Sparse.get 0 (e.channel (hbmChannel r)).remap (hbmPage r) = k + 1 ∧ (e.channel (hbmChannel r)).taken = k + 1 ∧
        (∀ j, Sparse.get 0 e.mem.hbm j = if hbmChannel j = hbmChannel r ∧ hbmPage j = hbmPage r
          then asRead (Sparse.get 0 s.mem.hbm j) (s.hbmFaultsAt j) else Sparse.get 0 s.mem.hbm j) ∧
        e.inv.records = s.inv.records ++ [⟨4, true, 0, hbmChannel r + hbmPage r * 256, k⟩])) ∧
    (Starts s n 0x0900 c → (s.invImage true).length ≤ c.arg 1 →
      Reports s (.invRead n) c (c.arg 0) (s.invImage true) [(s.invImage true).length]) ∧
    (∀ f1 f2 copy seq, s.boot.stripFailed = false → s.boot.dir = some (copy, seq) → s.inv.unsaved ≠ 0 → s.boot.invCopy ≤ 1 →
      copy ≤ 1 →
      let image := Programs s (offInv (1 - s.boot.invCopy)) (s.invImage false).length f1 f2
      let saved (e : State) : Prop := e.inv = { s.inv with unsaved := 0 } ∧ e.boot.invCopy = 1 - s.boot.invCopy ∧
        e.boot.dir = some (1 - copy, (seq + 1) % 2 ^ 64) ∧
        (∀ i x, (s.invImage false)[i]? = some x → (e.flash s.firstFlash).row (offInv (1 - s.boot.invCopy) + i) = x) ∧
        (e.flash s.firstFlash).row (offDir (1 - copy)) =
          dirRow s.boot.dirSlot (1 - s.boot.invCopy) ((seq + 1) % 2 ^ 64) s.fuses.serial ∧
        e.tiles = s.tiles ∧ e.mem = s.mem
      (image → Programs s (offDir (1 - copy)) 1 f1 f2 →
        (Starts s n 0x0907 c → Does s (.invRecord n f1 f2) c stOk 0 [s.inv.unsaved] saved) ∧
        (s.cur.ready = true → ∃ u, exec (.inventoryFlush f1 f2) s = .next u ∧ saved u)) ∧
      (¬ image → Starts s n 0x0907 c → Does s (.invRecord n f1 f2) c stNoResource 0 [] (fun e =>
        e.inv = s.inv ∧ e.boot.flash0 = s.boot.flash0 ∧ e.boot.flash1 = s.boot.flash1))) ∧
    (∀ f1 f2, s.boot.stripFailed = true → Starts s n 0x0907 c → s.inv.unsaved ≠ 0 →
      Does s (.invRecord n f1 f2) c stNoResource 0 [] (fun e => e = s)) ∧
    (∀ f1 f2, Starts s n 0x0907 c → s.inv.unsaved = 0 → Does s (.invRecord n f1 f2) c stOk 0 [0] (fun e => e = s))

/-- Casts (R360-R367): a leaf's cast.subscribe goes to the source as a Peer command and waits for it; at the source it registers
the leaf and answers the shard's rows and the last instance (a leaf that subscribes again replaces its entry: log entry 57);
cast.unsubscribe ends either side, and is OK where there is nothing to end (log entry 57); cast.status reports without
changing anything, of a leaf from its source's first answer on; a leaf whose subscription is not live asks again. -/
def Sys2Proof.Machine.CastCommands : Prop :=
  ∀ (s : State) (n q : Nat) (c : Cmd), q = c.arg 0 →
    (∀ r port, Starts s n 0x0A00 c → isPeerPort c.port = false → decodeAddr (c.arg 1) = some (.hbm r) → r < hbmRows →
      c.arg 2 ≤ s.room (.hbm r) → s.sub q = none → s.casts.subs.length < 4 → q * 64 ≠ s.house →
      s.route (q * 64) = some port → s.convs.length < 1024 →
      ∃ u, exec (.castSubscribe n) s = .next u ∧ u.sub q = some (Sub.fresh q (c.arg 1) (c.arg 2)) ∧
        Waits u n (.peer s.cur.nextTag) ∧
        u.cur.sent = s.cur.sent ++ [⟨s.cur.nextTag, port, q * 64, 0x0A00, .subscribe (some n) q⟩] ∧ u.tiles = s.tiles) ∧
    (Starts s n 0x0A00 c → isPeerPort c.port = true → s.castSource q = true →
      (s.casts.leaves.filter (fun l => l.house != c.house)).length < 4 →
      Does s (.castSubscribe n) c stOk 0 [s.shardRows % 2 ^ 32, s.shardRows / 2 ^ 32 % 2 ^ 32, s.casts.lastInst] (fun e =>
        (∃ l, e.leaf c.house = some l ∧ l.xfer = none) ∧ (∀ h, h ≠ c.house → e.leaf h = s.leaf h) ∧ e.tiles = s.tiles)) ∧
    (Starts s n 0x0A01 c → isPeerPort c.port = true →
      Does s (.castUnsubscribe n) c stOk 0 [] (fun e => e.leaf c.house = none ∧
        (∀ h, h ≠ c.house → e.leaf h = s.leaf h) ∧ e.tiles = s.tiles)) ∧
    (Starts s n 0x0A01 c → isPeerPort c.port = false → (∀ p, s.cur.active = some p → (s.win p 15).ledger = []) →
      Does s (.castUnsubscribe n) c stOk 0 [] (fun e => e.sub q = none ∧ ∀ k, k ≠ q → e.sub k = s.sub k)) ∧
    (Starts s n 0x0A02 c →
      (s.castSource q = true →
        Does s (.castStatus n) c stOk 0 [s.casts.leaves.length, s.casts.allDone, s.casts.overruns] (fun e => e = s)) ∧
      (s.castSource q = false → s.sub q = none → Does s (.castStatus n) c stOk 0 [0, 0, 0, 0] (fun e => e = s)) ∧
      (∀ u, s.castSource q = false → s.sub q = some u → u.valid = false →
        (∃ x ∈ s.cur.sent, ∃ m, x.purpose = .subscribe (some m) q) → Does s (.castStatus n) c stOk 0 [0, 0, 0, 0] (fun e => e = s)) ∧
      (∀ u, s.castSource q = false → s.sub q = some u →
        (u.valid = true ∨ ∀ x ∈ s.cur.sent, ∀ m, x.purpose ≠ .subscribe (some m) q) →
        Does s (.castStatus n) c stOk 0
          [if u.valid then 2 else 1, fld u.record.toNat 128 32, u.accepted % 2 ^ 32, u.incomplete] (fun e => e = s))) ∧
    (∀ u port, s.sub q = some u → u.live = false → s.cur.ready = true →
      (∀ x ∈ s.cur.sent, ∀ m, x.purpose ≠ .subscribe m q) → q * 64 ≠ s.house → s.route (q * 64) = some port →
      s.convs.length < 1024 →
      ∃ v, exec (.castResubscribe q) s = .next v ∧ v.casts = s.casts ∧
        v.cur.sent = s.cur.sent ++ [⟨s.cur.nextTag, port, q * 64, 0x0A00, .subscribe none q⟩])

/-- Takeovers (R328, R368-R370): takeover.offer and takeover.assume of a house whose cast copy is complete and of this digest
probe it and wait; of one without a subscription they are refused; takeover.announce gives the former house the port of the
new one, whose own entry ends. -/
def Sys2Proof.Machine.TakeoverCommands : Prop :=
  ∀ (s : State) (n : Nat) (c : Cmd),
    (∀ op i a u port, (op = 0x0A10 ∧ i = .takeoverOffer n ∧ a = false ∨ op = 0x0A11 ∧ i = .takeoverAssume n ∧ a = true) →
      Starts s n op c → s.sub (c.arg 0 / 64) = some u → u.valid = true → fld u.record.toNat 160 128 = s.digest128 →
      c.arg 0 ≠ s.house → s.route (c.arg 0) = some port → s.convs.length < 1024 →
      ∃ v, exec i s = .next v ∧ Waits v n (.peer s.cur.nextTag) ∧ v.casts = s.casts ∧ v.tiles = s.tiles ∧
        v.cur.sent = s.cur.sent ++ [⟨s.cur.nextTag, port, c.arg 0, 0x0100, .probe n a⟩]) ∧
    (Starts s n 0x0A10 c → s.sub (c.arg 0 / 64) = none →
      Does s (.takeoverOffer n) c stBadParam 0 [] (fun e => e = s)) ∧
    (∀ port, Starts s n 0x0A12 c → isPeerPort c.port = false → s.route (c.arg 1) = some port → c.arg 0 ≠ c.arg 1 →
      (∀ v ∈ s.convs, v.house ≠ c.arg 0 ∧ v.house ≠ c.arg 1) →
      Does s (.takeoverAnnounce n) c stOk 0 [] (fun e => e.route (c.arg 0) = some port ∧ e.route (c.arg 1) = none ∧
        (∀ h, h ≠ c.arg 0 → h ≠ c.arg 1 → e.route h = s.route h) ∧ e.convs = s.convs ∧ e.tiles = s.tiles ∧
        e.set.live = s.set.live)) ∧
    (Starts s n 0x0A12 c → isPeerPort c.port = false → s.route (c.arg 1) = none →
      Does s (.takeoverAnnounce n) c stBadParam 0 [] (fun e => e = s)) ∧
    (Starts s n 0x0A12 c → isPeerPort c.port = true → Does s (.takeoverAnnounce n) c stOk 0 [] (fun e => e = s))

/-- Casts and hot spares. -/
def Obligations.CastsAndTakeovers : Prop := CastCommands ∧ TakeoverCommands

/-- Updates and attestation (R308, R388, R392-R394, R397-R401). upd.stage writes its bytes into the staging region and clears
verification (that one whose write fails clears it too is log entry 72); upd.verify marks what passes the image checks; upd.status reports both; upd.activate of a verified settings
block writes it, enrols its key when none is, and makes its values live; of a Curator image it hands over once no started
command is left to wait for: the standby runs the new image and, when the directory has been rewritten, the security count
rises to the image's and never falls. A write that fails ends the command with NO_RESOURCE; where it is the directory's, the
handover has been made (log entry 73). attest.report and attest.certs
report what R400 and R401 name, the report signed with the identity key: only the nonce of the signature is open. -/
def Obligations.UpdateCommands : Prop :=
  ∀ (s : State) (n : Nat) (c : Cmd), s.boot.stripFailed = false →
    let im := c.arg 0
    (∀ f1 f2, Starts s n 0x0B00 c → c.arg 1 + c.payload.length ≤ slotBytes im → im ≤ 1 →
      let made := Programs s (offStage im + c.arg 1 / 512) (cdiv (c.arg 1 + c.payload.length) 512 - c.arg 1 / 512) f1 f2
      (made → Does s (.updStage n f1 f2) c stOk 0 [] (fun e =>
        e.boot.verified im = none ∧
        e.boot.staged im = max (if c.arg 1 = 0 then 0 else s.boot.staged im) (c.arg 1 + c.payload.length) ∧
        (∀ i, i < c.payload.length →
          elem 8 ((e.flash s.firstFlash).row (offStage im + (c.arg 1 + i) / 512)).toNat ((c.arg 1 + i) % 512) =
            elem 8 (natOfBytes c.payload) i) ∧
        e.fuses = s.fuses ∧ e.set = s.set ∧ e.tiles = s.tiles)) ∧
      (¬ made → Does s (.updStage n f1 f2) c stNoResource 0 [] (fun e => e.boot.verified im = none ∧
        e.boot.flash0 = s.boot.flash0 ∧ e.boot.flash1 = s.boot.flash1 ∧ e.fuses = s.fuses))) ∧
    (Starts s n 0x0B01 c → c.arg 1 ≤ s.boot.staged im → s.stageFault im (c.arg 1) = none → s.boot.phase = 5 → im ≤ 1 →
      Does s (.updVerify n) c stOk 0 [] (fun e => e.boot.verified im = some (c.arg 1) ∧ e.boot.flash0 = s.boot.flash0 ∧
        e.set = s.set)) ∧
    (∀ st k, Starts s n 0x0B01 c → c.arg 1 ≤ s.boot.staged im → s.stageFault im (c.arg 1) = some (st, k) →
      Does s (.updVerify n) c st k [] (fun e => e = s)) ∧
    (Starts s n 0x0B03 c →
      Does s (.updStatus n) c stOk 0 [s.boot.staged im, if (s.boot.verified im).isSome then 1 else 0] (fun e => e = s)) ∧
    (∀ f1 f2 len b, Starts s n 0x0B02 c → c.wait ≠ .handover → im = 1 → s.boot.verified 1 = some len → s.anyLaunch = false →
      s.checkBlock (s.stagedBytes 1 len) none = .ok b → Programs s (offSettings s.freeSettingsSlot) (cdiv len 512) f1 f2 →
      ∃ e u, exec (.updActivate n f1 f2) s = .next u ∧
        Answered e u c stOk 0 [e.set.gen, lo32 e.set.digest.toNat, hi32 e.set.digest.toNat] ∧
        e.set.gen = (s.set.gen + 1) % 2 ^ 32 ∧ e.set.live = b.live ∧ e.boot.values = b.live ∧
        e.boot.block = some ⟨b.serial, s.freeSettingsSlot, b.hash⟩ ∧
        e.fuses = { s.fuses with opKey := some (match s.fuses.opKey with
          | some k => k
          | none => sha384Num b.key) } ∧ e.tiles = s.tiles) ∧
    (∀ f1 f2 len q d, Starts s n 0x0B02 c → c.wait ≠ .handover → im = 0 → s.boot.verified 0 = some len →
      s.cur.standby = some q → s.stageFault 0 len = none → Programs s (offCurator (1 - s.boot.dirSlot)) (cdiv len 512) f1 f2 →
      d ∈ s.cur.cmds → d.n ≠ n → d.cutShort = true →
      ∃ u, exec (.updActivate n f1 f2) s = .next u ∧ u.cur.handover = true ∧ Waits u n .handover ∧
        u.cur.active = s.cur.active ∧ u.cur.standby = s.cur.standby ∧ u.fuses = s.fuses) ∧
    (∀ f1 f2 i q, s.cmd n = some c → c.wait = .handover → s.draining n = false → s.cur.standby = some q →
      s.curatorSlot s.firstFlash (1 - s.boot.dirSlot) = some i → (s.win q 15).ledger = [] →
      (∀ p, s.cur.active = some p → (s.win p 15).ledger = []) →
      let handed (e : State) : Prop := e.cur.active = some q ∧ e.cur.standby = s.cur.active ∧ e.cur.handover = false ∧
        e.boot.image = some i
      let named := Programs s (offDir (match s.boot.dir with
        | some (copy, _) => 1 - copy
        | none => 0)) 1 f1 f2
      (named → Does s (.updActivate n f1 f2) c stOk 0 [i.version] (fun e => handed e ∧
        e.fuses = { s.fuses with security := max s.fuses.security i.security })) ∧
      (¬ named → Does s (.updActivate n f1 f2) c stNoResource 0 [] (fun e => handed e ∧ e.fuses = s.fuses))) ∧
    (Starts s n 0x0C00 c →
      ∃ (x : Row) (nonce : Nat), (s.resultStatus c (c.arg 1) 1 = stOk →
        Does s (.attestReport n) c stOk 0 [] (fun e => e = ({ s with free := s.free + 1 } : State).putResult c (c.arg 1) [x])) ∧
        fld x.toNat 0 16 = 1 ∧ fld x.toNat 24 1 = b2n s.fuses.debug ∧ fld x.toNat 25 1 = b2n s.fuses.opKey.isSome ∧
        fld x.toNat 96 32 = s.fuses.security % 2 ^ 32 ∧ fld x.toNat 128 64 = s.fuses.serial % 2 ^ 64 ∧
        fld x.toNat 256 32 = s.set.gen % 2 ^ 32 ∧ fld x.toNat 288 14 = s.house % 2 ^ 14 ∧
        fld x.toNat 384 256 = c.arg 0 ∧ fld x.toNat 640 384 = s.set.digest.toNat ∧
        let sig := ecdsaSign s.fuses.idKey (bytesOfNat 416 (x.toNat % 2 ^ 3328)) nonce
        fld x.toNat 3328 768 = natOfBytes (bytesBE 48 sig.1 ++ bytesBE 48 sig.2)) ∧
    (Starts s n 0x0C01 c → Reports s (.attestCerts n) c (c.arg 0) (certRows s.fuses.certs) [])

/-- Curator's failover (R306, R307, R351): a heartbeat, 8 us after the last, writes a row of the standby's scratchpad outside the
image that it holds, starts both times again, and changes nothing else (which row, and what it holds, are log entry 71); without a
standby the nearest spare becomes it, with a copy of the journal; after 40 us without a heartbeat the takeover begins, is
counted, and no Curator runs; when it is complete the standby is the active Curator with its copy of the journal, a started
command that only reads is to be executed again, the former one is retired with cause 5, and a service strip lost meanwhile is reported over Arcade (R383). -/
def Obligations.CuratorFailover : Prop :=
  ∀ (s : State) (p : Nat), s.cur.active = some p →
    (∀ q, s.cur.ready = true → s.cur.standby = some q → Lapses s .beat 8000 →
      let e := s.ripen .beat 8000
      ∃ r x ts, ((∀ i, s.boot.image = some i → i.codeRows < 0x6000) →
          r < 0x6000 ∧ ∀ i, s.boot.image = some i → i.codeRows ≤ r) ∧
        exec .curatorHeartbeat s = .next (setRow { s with
          free := s.free + 1
          cur := { s.cur with beats := s.cur.beats + 1 }
          clocks := e.clocks
          timers := ts } q r x) ∧
        ts.filter (fun k => k.1 == .beat) = [(.beat, dieOf p, (e.clock (dieOf p)).count)] ∧
        ts.filter (fun k => k.1 == .seen) = [(.seen, dieOf q, (e.clock (dieOf q)).count)] ∧
        ∀ k, k ≠ .beat → k ≠ .seen → ts.filter (fun x => x.1 == k) = s.timers.filter (fun x => x.1 == k)) ∧
    (∀ q i, s.cur.ready = true → s.cur.standby = none → s.inv.failing = [] → s.boot.stripFailed = false →
      s.nearestSpare p = some q → s.boot.image = some i → p ≠ q →
      ∃ u, exec .curatorHeartbeat s = .next u ∧ u.cur.standby = some q ∧ u.cur.active = some p ∧ u.cur.mirror = s.cur.cmds ∧
        u.cur.mirrorReplied = s.cur.replied ∧
        (u.ent q).role = roCurator ∧ (u.ent p).role = roCurator ∧ u.mem = s.mem ∧ ∀ r, r ≠ q → u.tile r = s.tile r) ∧
    (∀ q, s.cur.ready = true → s.cur.standby = some q → Lapses s .seen 40000 → s.boot.phase = 5 →
      s.counter 0x1701 0 < 2 ^ 48 - 1 →
      ∃ u, exec .standbyTakeover s = .next u ∧ u.cur = { s.cur with ready := false, handover := true } ∧
        u.counter 0x1701 0 = s.counter 0x1701 0 + 1 ∧ u.tiles = s.tiles ∧ u.inv = s.inv ∧ u.mem = s.mem) ∧
    (∀ q, s.cur.ready = false → s.cur.handover = true → s.cur.standby = some q → p ≠ q → p < numPhys →
      ∃ u, exec .standbyTakeover s = .next u ∧ u.cur.active = some q ∧ u.cur.standby = none ∧ u.cur.ready = true ∧
        u.cur.handover = false ∧ (u.ent q).role = roCurator ∧ (u.ent p).role = roRetired ∧ (u.ent p).cause = 5 ∧
        ((∀ c ∈ s.cur.mirror, c.cutShort = false) → u.cur.cmds = s.cur.mirror ∧ u.cur.replied = s.cur.mirrorReplied) ∧
        (∀ c, s.cur.mirror = [c] → c.cutShort = true → (∀ left ends, c.wait ≠ .launch left ends) → c.readOnly = true →
          u.cur.cmds = [{ c with
            st := .queued
            wait := .none }]) ∧
        (s.boot.stripFailed = true → s.boot.stripTold = false → s.arc.linkUp = true → ∃ l, u.tx = l ++ [Tx.stripLost]))

/-! ### Causeway and CXL -/

/-- What an event of a port's lanes leaves alone: the other ports, the tiles, memory, the journal and the settings. -/
def Sys2Proof.Machine.PortOnly (s u : State) (p : Nat) : Prop :=
  (∀ q, q ≠ p → u.cport q = s.cport q) ∧ u.tiles = s.tiles ∧ u.mem = s.mem ∧ u.cur = s.cur ∧ u.set = s.set ∧ u.convs = s.convs

/-- Lanes (R309, R312, R329-R331, R357). When the lane in use loses lock, or shows too many errors, and the other lane is usable,
traffic moves to it, the switch is counted and the lane left is tested; a clean test keeps the lane, a failed one retires it
for good and records it. A lane that finishes training is usable; a LANE frame moves the traffic of this end; a HELLO leaves
on a lane that has been silent. -/
def Sys2Proof.Machine.LaneEvents : Prop :=
  ∀ (s : State) (p : Nat), p < 8 → s.boot.phase = 5 →
    let k := s.cport p
    let left (i : Instr) : Prop := k.up = true → s.cur.ready = true → k.usable (!k.onSpare) = true →
      s.counter 0x180D p < 2 ^ 48 - 1 →
      ∃ u, exec i s = .next u ∧ (u.cport p).onSpare = !k.onSpare ∧ (u.cport p).testing = laneNo k.onSpare ∧
        (u.cport p).usable k.onSpare = false ∧ (u.cport p).usable (!k.onSpare) = true ∧
        u.counter 0x180D p = s.counter 0x180D p + 1 ∧ PortOnly s u p
    left (.laneLockLoss p) ∧ (∀ bad, s.live keySpareBer < bad → left (.laneBerCheck p bad)) ∧
    (k.up = true → k.usable (!k.onSpare) = false →
      ∃ u, exec (.laneLockLoss p) s = .next u ∧ (u.cport p).up = false ∧ (u.cport p).onSpare = k.onSpare ∧ PortOnly s u p) ∧
    (∀ lane, k.testing = laneNo lane → k.up = true →
      ∃ u, exec (.laneTestDone p lane true) s = .next u ∧ u.cport p = { k.setUp lane true with testing := 0 } ∧ PortOnly s u p) ∧
    (∀ lane, k.testing = laneNo lane → s.counter 0x180F p < 2 ^ 48 - 1 → s.inv.records.length < 16384 →
      ∃ u, exec (.laneTestDone p lane false) s = .next u ∧ (u.cport p).usable lane = false ∧ (u.cport p).testing = 0 ∧
        u.counter 0x180F p = s.counter 0x180F p + 1 ∧
        u.inv.records = s.inv.records ++ [⟨5, true, 0, p + 8 * b2n lane, 0⟩] ∧ PortOnly s u p) ∧
    (∀ lane, (if lane then k.spareGone else k.workGone) = false → k.testing ≠ laneNo lane →
      (k.up = true ∨ k.onSpare = lane) →
      ∃ u, exec (.portTrainingDone p lane) s = .next u ∧ u.cport p = k.setUp lane true ∧ (u.cport p).usable lane = true ∧
        PortOnly s u p) ∧
    (∀ f s' x, Takes s p f ftLane s' x → bit x.hdr 96 = false → k.usable (bit (natOfBytes x.body) 0) = true →
      ∃ u, exec (.laneFrame p f) s = .next u ∧ (u.cport p).onSpare = bit (natOfBytes x.body) 0 ∧ PortOnly s u p) ∧
    (∀ lane, k.usable lane = true → s.ethMode p = false → Lapses s (.hello p lane) 100000 →
      ∃ u, exec (.helloSend p lane) s = .next u ∧
        u = { s with tx := u.tx, timers := u.timers, clocks := (s.ripen (.hello p lane) 100000).clocks } ∧
        u.tx = s.tx ++ [.frame p lane none (ctlFrame ftHello 0 s.house 0 0 false s.digest128 [])] ∧
        (∀ e ∈ u.timers, e ∈ s.timers ∨ e.1 = .hello p lane) ∧
        ∀ e ∈ u.timers, e.1 = .hello p lane → e.2.2 = (u.clock e.2.1).count)

/-- The link commands (R312, R330, R332, R333): link.status reports without changing anything; link.spare moves a port's traffic
to a usable lane and counts; link.quarantine sets the port's flag and nothing else; link.digest reports the last digest, or
zero. -/
def Sys2Proof.Machine.LinkCommands : Prop :=
  ∀ (s : State) (n : Nat) (c : Cmd),
    let p := c.arg 0
    let k := s.cport p
    (Starts s n 0x0D00 c → p < 8 →
      Does s (.linkStatus n) c stOk 0 [s.linkBits p, (s.convs.filter (fun v => v.port == p)).length, k.lastPeer, 0]
        (fun e => e = s) ∧ fld (s.linkBits p) 0 3 = k.state ∧ fld (s.linkBits p) 4 1 = b2n k.quarantine) ∧
    (Starts s n 0x0D00 c → p = 8 →
      Does s (.linkStatus n) c stOk 0 [if s.arc.linkUp then 2 else 0, if s.arc.linkUp then 16 else 0, 0, 0] (fun e => e = s)) ∧
    (Starts s n 0x0D01 c → k.onSpare ≠ (c.arg 1 == 1) → k.usable (c.arg 1 == 1) = true → s.boot.phase = 5 →
      s.counter 0x180D p < 2 ^ 48 - 1 →
      Does s (.linkSpare n) c stOk 0 [] (fun e => (e.cport p).onSpare = (c.arg 1 == 1) ∧
        e.counter 0x180D p = s.counter 0x180D p + 1 ∧ PortOnly s e p)) ∧
    (Starts s n 0x0D01 c → k.onSpare = (c.arg 1 == 1) → Does s (.linkSpare n) c stOk 0 [] (fun e => e = s)) ∧
    (Starts s n 0x0D02 c →
      Does s (.linkQuarantine n) c stOk 0 [] (fun e => e.cport p = { k with quarantine := c.arg 1 == 1 } ∧ PortOnly s e p)) ∧
    (Starts s n 0x0D03 c →
      let d := match k.digest with
        | some x => x.toNat
        | none => 0
      Does s (.linkDigest n) c stOk 0 [fld d 0 32, fld d 32 32, fld d 64 32, fld d 96 32] (fun e => e = s))

/-- The lanes of Causeway and the link commands. -/
def Obligations.LanesAndPorts : Prop := LaneEvents ∧ LinkCommands

/-- Expanders (R359): a lost link leaves its range unbacked, and empty (log entry 64: DEDUCED), and is counted, here where no queue of
a tile is at work; an attached expander is backed from a row
on that no other of its port meets, unless the port's PHY has failed. -/
def Sys2Proof.Machine.Expanders : Prop :=
  ∀ (s : State) (x e : Nat), x < 4 →
    (∀ d, s.mem.expanders.find? (fun y => y.port == x && y.id == e) = some d → s.boot.phase = 5 →
      s.counter 0x1102 x < 2 ^ 48 - 1 → (∀ p, (s.tile p).queues = []) →
      ∃ u, exec (.cxlLinkDown x e) s = .next u ∧ u.mem.expanders = s.mem.expanders.filter (fun y => y != d) ∧
        (∀ r, r < 2 ^ 33 → inSpan d.base d.rows r = true → Sparse.get 0 u.mem.cxl (cxlKey x r) = 0) ∧
        (∀ y r, r < 2 ^ 33 → (y ≠ x ∨ inSpan d.base d.rows r = false) →
          Sparse.get 0 u.mem.cxl (cxlKey y r) = Sparse.get 0 s.mem.cxl (cxlKey y r)) ∧
        u.counter 0x1102 x = s.counter 0x1102 x + 1 ∧ u.mem.hbm = s.mem.hbm ∧ u.cur = s.cur) ∧
    (∀ rows, s.phyFailed (x + 1) = true → exec (.cxlExpanderAttach x e rows) s = .next s) ∧
    (∀ rows b, rows ≠ 0 → s.cur.ready = true → s.phyFailed (x + 1) = false → (∀ y ∈ s.mem.expanders, ¬ (y.port = x ∧ y.id = e)) →
      lowestFree s.mem.expanders x rows = some b →
      exec (.cxlExpanderAttach x e rows) s =
        .next { s with mem := { s.mem with expanders := s.mem.expanders ++ [⟨x, e, b, rows⟩] } } ∧
      b + rows ≤ 2 ^ 33 ∧ ∀ y ∈ s.mem.expanders, y.port = x → extentsMeet b rows 1 y.base y.rows 1 = false)

/-- What backs the companion tier and the CXL tier. -/
def Obligations.OuterMemory : Prop := Apertures ∧ Expanders

/-- Frames that pass every check of R311, R314 and R317 (R318-R324, R332). Each control frame's digest is kept. An ACK removes what
it acknowledges. The next CMD of a conversation that passes receipt is queued; a TALLY settles what its window did not
receive as consumed; the one row of a data frame lands; a final reply ends the command it answers. A CMD out of sequence is
dropped and counted. -/
def Obligations.FramesReceived : Prop :=
  ∀ (s s' : State) (p : Nat) (f : RxFrame) (x : Rx),
    (Takes s p f ftHello s' x →
      ∃ u, exec (.helloFrame p f) s = .next u ∧ (u.cport p).digest = some (BitVec.ofNat 128 x.digest) ∧
        (u.cport p).lastPeer = x.src ∧ (bit x.hdr 96 = false → u.tiles = s.tiles ∧ u.convs = s.convs)) ∧
    (∀ c, Takes s p f ftAck s' x → bit x.hdr 96 = true → s.conv p x.src = some c → c.waiting = [] →
      (∀ k ∈ c.unacked, k.tally = none) →
      ∃ u, exec (.ackFrame p f) s = .next u ∧ u.tiles = s.tiles ∧ (u.cport p).digest = some (BitVec.ofNat 128 x.digest) ∧
        u.conv p x.src = some { c with unacked := c.unacked.filter (fun k =>
          !decide ((fld x.hdr 80 16 + 65536 - k.seq) % 65536 < 32768)) }) ∧
    (∀ c, Takes s p f ftCmd s' x → NextInLine s p x c →
      let hdr := BitVec.ofNat 512 (natOfBytes (x.body.take 64))
      hOpcode hdr ≠ 0x0A12 → s.receiptStatus (.cwy p) hdr (x.body.drop 64) x.digest = (stOk, 0) →
      ∃ u d c', exec (.cmdFrame p f) s = .next u ∧ u.cur.cmds = s.cur.cmds ++ [d] ∧ d.port = .cwy p ∧ d.house = x.src ∧
        d.seq = x.seq ∧ d.hdr = hdr ∧ d.payload = x.body.drop 64 ∧ d.st = .queued ∧
        u.conv p x.src = some c' ∧ c'.rxNext = (c.rxNext + 1) % 65536 ∧ u.tiles = s.tiles) ∧
    (∀ c, Takes s p f ftCmd s' x → s.conv p x.src = some c → bit x.hdr 96 = false → x.seq ≠ c.rxNext →
      ¬ (c.rxNext + 65535 - x.seq) % 65536 < c.rxCount → p < 8 → s.boot.phase = 5 → s.counter 0x1808 p < 2 ^ 48 - 1 →
      ∃ u, exec (.cmdFrame p f) s = .next u ∧ u.cur = s.cur ∧ u.counter 0x1808 p = s.counter 0x1808 p + 1 ∧
        u.convs = s.convs ∧ u.tiles = s.tiles) ∧
    (∀ c r y q, Takes s p f ftRpl s' x → NextInLine s p x c → r = natOfBytes x.body → fld r 224 32 = crc32c r 28 →
      s.cur.sent.find? (fun z => z.tag == fld r 0 16 && z.port == p && z.house == x.src && z.opcode == fld r 48 16) = some y →
      y.purpose = .unsubscribe q → fld r 16 8 ≠ stAccepted → bit r 41 = false →
      ∃ u, exec (.rplFrame p f) s = .next u ∧ u.tiles = s.tiles ∧ u.casts = s.casts ∧
        u.cur = { s.cur with sent := s.cur.sent.filter (fun z => !(z.tag == fld r 0 16 && z.port == p && z.house == x.src)) }) ∧
    (∀ c q e, Takes s p f ftTally s' x → NextInLine s p x c →
      let b := natOfBytes x.body
      let n := fld b 10 4
      let w := s.win q n
      let d := shortfall (fld b 32 32) 0 e.received
      bit b 22 = false → s.phys (fld b 0 10) = some q → w.isOpen = true → w.gen = fld b 14 8 → w.ledger = [e] →
      e.remote = true → srcHouse e.src = x.src →
      ∃ u, exec (.tallyFrame p f) s = .next u ∧ (u.win q n).consumed = w.consumed + min d e.held ∧
        (u.win q n).pool = w.pool ∧
        (∀ y, (u.win q n).entryOf e.src = some y → y.held = e.held - min d e.held ∧ y.tally = fld b 32 32) ∧
        (∀ m, m ≠ n → u.win q m = s.win q m) ∧
        (∀ g, (w.arriveEn = false ∨ g ≠ w.arriveSig) → (u.tile q).signal g = (s.tile q).signal g) ∧
        u.tile q = { s.tile q with windows := (u.tile q).windows, signals := (u.tile q).signals } ∧
        ∀ r, r ≠ q → u.tile r = s.tile r) ∧
    (∀ q e, Takes s p f ftData s' x →
      let h := x.hdr
      let n := fld h 74 4
      let w := s.win q n
      let off := fld h 86 16
      bit h 116 = false → fld h 102 4 = 1 → s.phys (fld h 64 10) = some q → w.isOpen = true → w.gen = fld h 78 8 →
      w.ledger = [e] → e.src = srcWord (fld h 106 10) x.src → w.permits s.house e.src = true → e.held ≠ 0 →
      shortfall (fld h 128 32) 1 e.received = 0 → off < w.rows → (s.tile q).progRow (w.baseRow + off) = false →
      ∃ u, exec (.dataFrame p f) s = .next u ∧
        (∀ r, Sparse.get 0 (u.tile q).rows r =
          if r = w.baseRow + off then row (natOfBytes x.body % 2 ^ 4096) else Sparse.get 0 (s.tile q).rows r) ∧
        (u.win q n).consumed = w.consumed + 1 ∧ (u.win q n).pool = w.pool ∧
        (∀ y, (u.win q n).entryOf e.src = some y → y.held = e.held - 1 ∧ y.received = (e.received + 1) % 2 ^ 32) ∧
        (∀ m, m ≠ n → u.win q m = s.win q m) ∧
        (∀ g, (w.arriveEn = false ∨ g ≠ w.arriveSig) → (u.tile q).signal g = (s.tile q).signal g) ∧
        u.tile q = { s.tile q with
          rows := (u.tile q).rows
          fresh := (u.tile q).fresh
          banks := (u.tile q).banks
          windows := (u.tile q).windows
          signals := (u.tile q).signals } ∧ u.mem = s.mem ∧ ∀ r, r ≠ q → u.tile r = s.tile r)

/-- Conversations (R318, R320, R321): after 12 us without acknowledgement every unacknowledged frame is resent and the retry
counted; after 15 resends the peer is lost, Curator is notified, the conversation starts again with nothing kept, and
subscriptions to that house are no longer live; one that has been idle for 10 ms is freed. The other conversations stand. -/
def Obligations.Conversations : Prop :=
  ∀ (s : State) (p h : Nat) (c : Conv), s.conv p h = some c → p < 8 →
    let due : Prop := ∀ k, c.unacked.head? = some k → Lapses s (.retry p h k.seq) 12000
    let others (u : State) : Prop := ∀ q g, (q ≠ p ∨ g ≠ h) → u.conv q g = s.conv q g
    (c.unacked ≠ [] → (∀ k ∈ c.unacked, k.resends < 15) → due → s.boot.phase = 5 → s.counter 0x1809 p < 2 ^ 48 - 1 →
      ∃ u, exec (.controlRetry p h) s = .next u ∧
        u.conv p h = some { c with unacked := c.unacked.map (fun k => { k with resends := k.resends + 1 }) } ∧ others u ∧
        u.counter 0x1809 p = s.counter 0x1809 p + 1 ∧ u.tiles = s.tiles ∧ u.cur = s.cur ∧
        (∀ q, s.wayTo p h = some q → (s.cport q).up = true → u.tx.length = s.tx.length + c.unacked.length)) ∧
    (c.unacked ≠ [] → (∀ k ∈ c.unacked, 15 ≤ k.resends) → due → (∀ x ∈ s.cur.sent, ¬ (x.port = p ∧ x.house = h)) → s.colls = [] →
      c.tallies = [] → s.boot.phase = 5 → s.counter 0x180A p < 2 ^ 48 - 1 →
      ∃ u, exec (.peerLost p h) s = .next u ∧ u.conv p h = some (Conv.fresh p h) ∧ others u ∧
        u.cur = { s.cur with notices := s.cur.notices ++ [.peerLost p h] } ∧
        u.counter 0x180A p = s.counter 0x180A p + 1 ∧
        (∀ q v, u.sub q = some v → q * 64 = h → v.live = false) ∧ u.tiles = s.tiles ∧ u.mem = s.mem) ∧
    (c.unacked = [] → c.waiting = [] → Lapses s (.idle p h) 10000000 →
      ∃ u, exec (.conversationFree p h) s = .next u ∧ u.conv p h = none ∧ others u ∧
        (∀ e ∈ u.timers, e ∈ s.timers ∧ e.1.ofConv p h = false) ∧
        u = { s with convs := u.convs, timers := u.timers, clocks := (s.ripen (.idle p h) 10000000).clocks })

/-- Collectives (R334-R337). At a member without children in the tree: rank 0 completes each phase as its own command starts,
and the end frees the entry; another rank sends its phase up to its parent and waits. An unfinished phase that times out
aborts with CANCELLED; of the children's commands held for a collective that has not begun the first is ended when it has been
held that long, and the others stay; an aborted entry expires. -/
def Obligations.Collectives : Prop :=
  ∀ (s : State) (n : Nat) (c : Cmd),
    let id := c.arg 0
    let g := collGroup id
    (Starts s n 0x0D10 c → isPeerPort c.port = false → s.ownBeginOk c = true → s.coll id = none → s.colls.length < 64 →
      collChildren (c.arg 2) (c.arg 3) = [] →
      (c.arg 2 = 0 →
        ∃ u k, exec (.linkCollBegin n) s = .next u ∧ Drawn u n ∧ u.coll id = some k ∧ k.begun = true ∧ k.phase = 0 ∧
          k.complete = true ∧ k.rank = 0 ∧ k.size = c.arg 3 ∧ k.kind = c.arg 1 ∧ k.accfmt = c.arg 4 ∧ u.tiles = s.tiles) ∧
      (∀ port, c.arg 2 ≠ 0 → s.rankHouse g (collParent (c.arg 2) (c.arg 3)) ≠ s.house →
        s.route (s.rankHouse g (collParent (c.arg 2) (c.arg 3))) = some port → s.convs.length < 1024 →
        ∃ u k, exec (.linkCollBegin n) s = .next u ∧ Waits u n (.coll id) ∧ u.coll id = some k ∧ k.begun = true ∧
          k.sentUp = true ∧ k.rank = c.arg 2 ∧
          u.cur.sent = s.cur.sent ++ [⟨s.cur.nextTag, port, s.rankHouse g (collParent (c.arg 2) (c.arg 3)), 0x0D10,
            .collUp id 0⟩])) ∧
    (∀ k, Starts s n 0x0D11 c → isPeerPort c.port = false → s.coll id = some k → k.begun = true → k.aborted = none →
      k.phase = 0 → k.complete = true → k.rank = 0 → c.arg 1 = 0 → k.children = [] → collChildren 0 k.size = [] →
      s.casts.leaves = [] →
      ∃ u j, exec (.linkCollReady n) s = .next u ∧ Drawn u n ∧ u.coll id = some j ∧ j.phase = 1 ∧ j.complete = true ∧
        j.begun = true ∧ u.tiles = s.tiles) ∧
    (∀ k, Starts s n 0x0D12 c → isPeerPort c.port = false → s.coll id = some k → k.begun = true → k.aborted = none →
      k.phase = 1 → k.complete = true → k.rank = 0 → c.arg 1 = 0 → k.children = [] → collChildren 0 k.size = [] →
      s.casts.leaves = [] →
      ∃ u, exec (.linkCollEnd n) s = .next u ∧ Drawn u n ∧ u.coll id = none ∧ u.tiles = s.tiles) ∧
    (∀ j k d, s.coll j = some k → k.begun = true → k.aborted = none → k.complete = false → k.rank = 0 → k.own = some n →
      k.children = [] → s.cmd n = some d → Lapses s (.phase j) s.collBound → s.boot.phase = 5 → s.counter 0x1902 0 < 2 ^ 48 - 1 →
      ∃ u i, exec (.collPhaseTimeout j) s = .next u ∧ Drawn u n ∧ u.coll j = some i ∧ i.aborted = some stCancelled ∧
        u.counter 0x1902 0 = s.counter 0x1902 0 + 1 ∧ u.tiles = s.tiles) ∧
    (∀ j k e left, s.coll j = some k → k.begun = false → k.children = e :: left → Lapses s (.child e.2.2) s.collBound →
      ∃ u, exec (.collHeldTimeout j) s = .next u ∧ Drawn u e.2.2 ∧ (∀ i, i ≠ e.2.2 → u.cmd i = s.cmd i) ∧
        (left ≠ [] → u.coll j = some { k with children := left }) ∧ (left = [] → u.coll j = none) ∧
        ∀ i, i ≠ j → u.coll i = s.coll i) ∧
    (∀ j k, s.coll j = some k → k.aborted.isSome = true → Lapses s (.aborted j) s.collBound →
      ∃ u, exec (.collEntryExpiry j) s = .next u ∧ u.coll j = none ∧
        u = { s with colls := u.colls, timers := u.timers, clocks := (s.ripen (.aborted j) s.collBound).clocks } ∧
        (∀ e ∈ u.timers, e ∈ s.timers) ∧ ∀ i, i ≠ j → u.coll i = s.coll i)

/-! ### Power, resets and start-up -/

/-- All work has stopped and the rails are off, in phase 0 (R406): no launch, queue, command, conversation or collective is left,
and settings and counters are as at reset; fuses and flashes stand. What HBM and the tiles' rows hold then is undefined (R378),
and nothing is said of them. -/
def Sys2Proof.Machine.Stopped (s u : State) : Prop :=
  u.boot.phase = 0 ∧ u.power.rails = false ∧ u.cur = Curator.reset ∧ u.set = Settings.reset ∧
  u.counters = [] ∧ u.convs = [] ∧ u.colls = [] ∧ (∀ p, (u.tile p).launch = none ∧ (u.tile p).queues = []) ∧
  u.fuses = s.fuses ∧ u.boot.flash0 = s.boot.flash0 ∧ u.boot.flash1 = s.boot.flash1

/-- The input and the resets (R378, R379, R403-R406, R413, R420, R425). The housekeeping converter starts above 38 V, and the
straps of the I3C address are read; PWR_GOOD rises with its rails
and falls when one leaves regulation; an input below 36 V or above 62 V stops everything; outside 40-60 V ALERT_N is low;
RESET_N low stops everything, 10 us of it end a trip once the sensors read 95 C or less (where they come to read so within the low,
how much of it is still to come is free: log entry 66), and its rise zeroes every counter and
begins start-up at phase 1, where a service strip whose reference clock is missing fails. -/
def Obligations.InputAndResets : Prop :=
  ∀ (s : State) (mv : Nat), Sparse.wf Tile.reset s.tiles = true →
    (38000 < mv → mv ≤ 62000 → s.power.housekeeping = false →
      ∃ u, exec (.inputRise mv) s = .next u ∧ u.power.housekeeping = true ∧ u.power.inputMv = mv ∧
        u = { s with power := u.power, contacts := u.contacts } ∧ u.contacts.strap = s.contacts.strap ∧
        u.contacts.i3cStatic = 0x58 + s.contacts.strap ∧ u.contacts.i3cDynamic = none ∧
        (60000 < mv ∨ mv < 40000 → u.alert = true)) ∧
    (s.power.housekeeping = true → s.power.tripped = false → s.power.overVolt = false →
      exec .pwrGoodRise s = .next { s with power := { s.power with pwrGood := true } }) ∧
    exec .railLeavesRegulation s = .next { s with power := { s.power with pwrGood := false } } ∧
    (mv < 36000 → s.power.housekeeping = true →
      ∃ u, exec (.inputLoss mv) s = .next u ∧ Stopped s u ∧ u.power.housekeeping = false ∧ u.power.pwrGood = false ∧
        u.power.inputMv = mv) ∧
    (62000 < mv →
      ∃ u, exec (.inputOvervoltage mv) s = .next u ∧ Stopped s u ∧ u.power.housekeeping = false ∧ u.power.pwrGood = false ∧
        u.power.overVolt = true) ∧
    (36000 ≤ mv → mv ≤ 62000 →
      ∃ u, exec (.inputOutOfRange mv) s = .next u ∧ u.power.inputMv = mv ∧
        (u.power.inputBad = true ↔ (mv < 40000 ∨ 60000 < mv)) ∧ u = { s with power := u.power } ∧
        ((mv < 40000 ∨ 60000 < mv) → u.alert = true)) ∧
    (∀ us, us ≠ 0 →
      ∃ u, exec (.resetNFall us) s = .next u ∧ Stopped s u ∧ u.power.resetHigh = false ∧
        u.power.tripped = (s.power.tripped && (decide (us < 10) || !s.power.cool))) ∧
    (∀ onDie d temp, s.power.resetHigh = false → s.power.tripped = true →
      ∃ u left, exec (.overTemperatureEnd onDie d temp) s = .next u ∧ left ≤ s.power.lowLeft ∧ u.power.lowLeft = left ∧
        u.power.tripped = (decide (left < 10) || !u.power.cool) ∧ u = { s with power := u.power, free := s.free + 1 }) ∧
    (s.power.resetHigh = false → s.power.housekeeping = true → s.power.pwrGood = true → s.power.tripped = false →
      s.power.overVolt = false → 40000 ≤ s.power.inputMv → s.power.inputMv ≤ 60000 →
      exec .resetNRise s = .next { s with
        counters := [], trace := { buf := [], seq := 0 }, power := { s.power with resetHigh := true, lowLeft := 0 },
        boot := { s.boot with phase := 1, noRef0 := (s.clock 0).lost, noRef7 := (s.clock 7).lost } })

/-- Start-up (R379-R387, R393, R397). D0's strip is elected if it passed, D7's if D0 failed or said nothing and D7 passed, and none
while both miss their reference clock; phase 2
goes on with the first valid Curator image, or ends in recovery without one; phase 3, with every test passed, ends with the
rails on and a Curator; phase 4 makes the settings live as generation 1 and sets CURATOR_READY. A strip that fails is lost
and reported over Arcade, at once if Arcade is up and CURATOR_READY is 1. -/
def Obligations.StartUp : Prop :=
  ∀ s : State,
    (∀ d7, s.boot.phase = 1 →
      (s.boot.noRef0 = false →
        ∃ u, exec (.stripSelfTest (some true) d7) s = .next u ∧ u.boot.strip = some false ∧ u.boot.phase = 2) ∧
      (s.boot.noRef7 = false →
        ∃ u, exec (.stripSelfTest (some false) true) s = .next u ∧ u.boot.strip = some true ∧ u.boot.phase = 2 ∧
          u.boot.held = s.boot.held ++ [(0x1D01, 0, 1)]) ∧
      (s.boot.d0 = none → s.boot.noRef7 = false →
        ∃ u, exec (.d0VerdictTimeout true) s = .next u ∧ u.boot.strip = some true ∧ u.boot.phase = 2 ∧
          u.boot.held = s.boot.held ++ [(0x1D01, 0, 1)]) ∧
      (s.boot.noRef0 = true → s.boot.noRef7 = true → ∀ d0,
        ∃ u, exec (.stripSelfTest d0 d7) s = .next u ∧ u.boot.phase = 1 ∧ u.boot.strip = s.boot.strip)) ∧
    (∀ d, s.boot.strip = some d → s.boot.stripFailed = false →
      let tell := !s.boot.stripTold && s.cur.ready && s.arc.linkUp
      exec .stripFailure s = .next { s with
        boot := { s.boot with stripFailed := true, stripTold := s.boot.stripTold || tell },
        tx := s.tx ++ (if tell then [Tx.stripLost] else []) }) ∧
    (s.boot.phase = 2 → s.boot.stripFailed = false →
      let r := ({ s with boot := { s.boot with second := s.boot.second || s.boot.flash1.present } } : State).readInventory
      let found := (firstValid (fun (e : Nat × Nat) => r.curatorSlot e.2 e.1)
        (r.candidates (if r.boot.dir.isSome then r.boot.dirSlot else 0))).2
      (∀ e i, found = some (e, i) →
        ∃ u, exec .holdingsRead s = .next u ∧ u.boot.phase = 3 ∧ u.boot.image = some i ∧ u.inv = r.inv ∧
          u.boot.second = (s.boot.second || s.boot.flash1.present) ∧ (s.fuses.opKey = none → u.boot.block = none) ∧ u.fuses = s.fuses ∧
          u.boot.flash0 = s.boot.flash0) ∧
      (found = none → ∃ u, exec .holdingsRead s = .next u ∧ u.boot.phase = 6 ∧ u.boot.image = none ∧ u.inv = r.inv)) ∧
    (∀ i a b, s.boot.phase = 3 → s.boot.stripFailed = false → s.boot.image = some i → s.boot.rebuild = false → s.cur.active = some a →
      s.cur.standby = some b → a ≠ b →
      ∃ u, exec (.dieBringUp ⟨[], []⟩) s = .next u ∧ u.boot.phase = 4 ∧ u.power.rails = true ∧ u.cur = s.cur ∧
        (u.ent a).role = roCurator ∧ (u.ent b).role = roCurator ∧ u.inv.records = s.inv.records ∧ u.set = s.set) ∧
    (∀ i up, s.boot.phase = 4 → s.boot.image = some i →
      ∃ u, exec (.curatorStart up) s = .next u ∧ u.boot.phase = 5 ∧ u.cur.ready = true ∧ u.set.live = s.boot.values ∧
        u.set.gen = 1 ∧ u.set.staged = [] ∧ u.house = liveGet s.boot.values keyHouse ∧
        u.power.liveCap = liveGet s.boot.values keyPowerCap ∧ u.arc.linkUp = (up.arcade && !s.phyFailed 0) ∧
        u.set.digest = sha384Num (digestMsg i.version s.boot.values) ∧ u.boot.held = [] ∧ u.fuses = s.fuses)

/-- Power control (R409-R411). An interval above the effective cap lowers every rail by 5 mV down to 650 mV, and once none is above
that, every ration by one sixteenth down to 1; it is counted. At 95 % of the cap or less, rations rise first. The hardware
limiter holds every die at 8/16 or less, and is released by a lower input power. -/
def Obligations.PowerControl : Prop :=
  ∀ (s : State) (watts : Nat), s.boot.phase = 5 →
    (s.cur.ready = true → s.power.effCap < watts → (∃ d, d < 32 ∧ 650 < s.power.vcoreAsk d) →
      s.counter 0x1F01 0 < 2 ^ 48 - 1 →
      ∃ u, exec (.powerInterval watts []) s = .next u ∧
        (∀ d, d < 32 → u.power.vcoreAsk d = max 650 (s.power.vcoreAsk d - 5) ∧ u.power.rationAsk d = s.power.rationAsk d) ∧
        u.counter 0x1F01 0 = s.counter 0x1F01 0 + 1 ∧ u.tiles = s.tiles ∧ u.cur = s.cur) ∧
    (s.cur.ready = true → s.power.effCap < watts → (∀ d, d < 32 → s.power.vcoreAsk d ≤ 650) →
      ∃ u, exec (.powerInterval watts []) s = .next u ∧
        (∀ d, d < 32 → u.power.rationAsk d = max 1 (s.power.rationAsk d - 1) ∧ u.power.vcoreAsk d = s.power.vcoreAsk d) ∧
        u.tiles = s.tiles ∧ u.cur = s.cur) ∧
    (s.cur.ready = true → 100 * watts ≤ 95 * s.power.effCap → (∃ d, d < 32 ∧ s.power.rationAsk d < 16) →
      ∃ u, exec (.powerInterval watts []) s = .next u ∧ u.counters = s.counters ∧
        (∀ d, d < 32 → u.power.rationAsk d = min 16 (s.power.rationAsk d + 1) ∧ u.power.vcoreAsk d = s.power.vcoreAsk d)) ∧
    (s.cur.ready = true → watts ≤ s.power.effCap → 95 * s.power.effCap < 100 * watts →
      exec (.powerInterval watts []) s = .next s) ∧
    (∀ i, (i = .peakLimit watts ∧ 13200 < watts ∧ s.power.peak = false ∨
        i = .capHold watts ∧ s.power.effCap < watts ∧ s.power.capHold = false) →
      s.power.rails = true → s.counter 0x1F03 0 < 2 ^ 48 - 1 →
      ∃ u, exec i s = .next u ∧ (∀ d, u.power.rationOf d ≤ 8) ∧ u.counter 0x1F03 0 = s.counter 0x1F03 0 + 1 ∧
        u.tiles = s.tiles ∧ u.cur = s.cur) ∧
    (∃ u, exec (.limiterRelease watts) s = .next u ∧ (watts < 12000 → u.power.peak = false) ∧
      (watts ≤ s.power.effCap → u.power.capHold = false) ∧ (12000 ≤ watts → u.power.peak = s.power.peak) ∧
      (s.power.effCap < watts → u.power.capHold = s.power.capHold) ∧ u.tiles = s.tiles ∧ u.cur = s.cur)

/-- Heat and coolant (Table 17-4, R412-R414). A die above 100 C loses 5 mV of rail, to no less than 650 mV; above 105 C it is held
at 8/16 or less with ALERT_N low; a stack above 85 C doubles refresh and above 95 C holds its two dies; cooling ends each (that
what heat took off the rail is given back at 100 C or less is log entry 65: DESIGN CHOICE). A
die at 110 C or a stack at 105 C switches everything off and latches THERM_TRIP_N. Low flow asserts ALERT_N and lowers the
cap; its return ends that. -/
def Obligations.HeatAndCoolant : Prop :=
  ∀ (s : State) (d : Nat) (temp : Int), s.boot.phase = 5 → s.power.rails = true → Sparse.wf Tile.reset s.tiles = true →
    (d < 32 → 1600 < temp → 650 < s.power.rail d → s.counter 0x2001 d < 2 ^ 48 - 1 →
      ∃ u, exec (.dieThrottle d temp) s = .next u ∧ u.power.rail d = max 650 (s.power.rail d - 5) ∧
        (∀ e, e ≠ d → u.power.rail e = s.power.rail e) ∧ u.counter 0x2001 d = s.counter 0x2001 d + 1 ∧ u.tiles = s.tiles) ∧
    (d < 32 → 1680 < temp → Sparse.get false s.power.dieHot d = false → s.counter 0x2002 d < 2 ^ 48 - 1 →
      ∃ u, exec (.dieOverTemp d temp) s = .next u ∧ u.power.rationOf d ≤ 8 ∧ u.alert = true ∧
        u.counter 0x2002 d = s.counter 0x2002 d + 1 ∧ u.tiles = s.tiles) ∧
    (d < 16 → 1360 < temp →
      ∃ u, exec (.stackHot d temp) s = .next u ∧ Sparse.get false u.power.refresh2 d = true ∧
        (1520 < temp → ∀ e ∈ stackDies d, u.power.rationOf e ≤ 8) ∧ u.tiles = s.tiles) ∧
    (d < 32 → temp ≤ 1600 →
      ∃ u, exec (.overTemperatureEnd true d temp) s = .next u ∧ Sparse.get false u.power.dieHot d = false ∧
        u.power.heatAsk d = 800 ∧ u = { s with power := u.power, free := u.free }) ∧
    (d < 16 → temp ≤ 1440 →
      ∃ u, exec (.overTemperatureEnd false d temp) s = .next u ∧ Sparse.get false u.power.stackHot d = false ∧
        (temp ≤ 1360 → Sparse.get false u.power.refresh2 d = false) ∧ u = { s with power := u.power, free := u.free }) ∧
    (∀ onDie, (onDie = true ∧ d < 32 ∧ 1760 ≤ temp ∨ onDie = false ∧ d < 16 ∧ 1680 ≤ temp) →
      ∃ u, exec (.thermalTrip onDie d temp) s = .next u ∧ Stopped s u ∧ u.thermTripLow = true ∧ u.power.pwrGood = false) ∧
    (∀ flow, flow < 3000 →
      ∃ u, exec (.lowFlow flow) s = .next u ∧ u.power.flow = flow ∧ u.alert = true ∧
        u.power.effCap = min (min s.power.liveCap (750 * flow / 1000)) 12000 ∧ u.tiles = s.tiles) ∧
    (∀ flow, 3000 ≤ flow →
      exec (.flowRestored flow) s = .next { s with power := { s.power with flow := flow, lowFlow := false } })

/-! ### What no step undoes -/

/-- What a store that is never changed back allows from `f` to `g` (R394, R398): the debug fuse, the root key, the serial, the
identity key and the certificates stand, the security count never falls, and an operator key that is enrolled stays. -/
def Sys2Proof.Machine.FusesKeep (f g : Fuses) : Prop :=
  g.debug = f.debug ∧ g.root = f.root ∧ g.serial = f.serial ∧ g.idKey = f.idKey ∧ g.certs = f.certs ∧ f.security ≤ g.security ∧
  ∀ k, f.opKey = some k → g.opKey = some k

/-- Every step, a reset and a takeover among them, leaves the fuses and the operator key so. -/
def Obligations.StepKeepsFuses : Prop := ∀ s u : State, step s = .next u → FusesKeep s.fuses u.fuses

end
end

