-- ==== Sys2Proof/Laws/Sparse.lean ====
section
/-! SUPPORT. The laws of sparse tables: reading after writing, the canonical form kept by every operation, and that equal
contents in canonical form are equal data. -/

namespace Sys2Proof.Machine

variable {α : Type}

@[simp] theorem Sparse.get_nil (d : α) (k : Nat) : Sparse.get d [] k = d := rfl

@[simp] theorem Sparse.get_cons (d : α) (j : Nat) (v : α) (m : Sparse α) (k : Nat) :
    Sparse.get d ((j, v) :: m) k = if j = k then v else Sparse.get d m k := rfl

theorem Sparse.get_erase (d : α) (m : Sparse α) (j k : Nat) :
    Sparse.get d (Sparse.erase m j) k = if j = k then d else Sparse.get d m k := by
  induction m with
  | nil => simp [Sparse.erase]
  | cons e m ih =>
    obtain ⟨i, v⟩ := e
    by_cases hij : i = j
    · subst hij
      have : Sparse.erase ((i, v) :: m) i = Sparse.erase m i := by simp [Sparse.erase]
      rw [this, ih, Sparse.get_cons]
      by_cases hik : i = k <;> simp [hik]
    · by_cases hik : i = k
      · subst hik
        simp [Sparse.erase, hij, Ne.symm hij]
      · simp [Sparse.erase, hij, hik, ih]

theorem Sparse.get_insert (d : α) (m : Sparse α) (j k : Nat) (v : α) (h : ∀ e ∈ m, e.1 ≠ j) :
    Sparse.get d (Sparse.insert m j v) k = if j = k then v else Sparse.get d m k := by
  induction m with
  | nil => simp [Sparse.insert]
  | cons e m ih =>
    obtain ⟨i, w⟩ := e
    have hi : i ≠ j := h (i, w) (by simp)
    have ih := ih (fun e he => h e (by simp [he]))
    by_cases hlt : j < i
    · simp [Sparse.insert, hlt]
    · by_cases hik : i = k
      · subst hik
        simp [Sparse.insert, hlt, Ne.symm hi]
      · simp [Sparse.insert, hlt, hik, ih]

theorem Sparse.mem_erase (m : Sparse α) (j : Nat) : ∀ e ∈ Sparse.erase m j, e ∈ m ∧ e.1 ≠ j := by
  induction m with
  | nil => simp [Sparse.erase]
  | cons e m ih =>
    obtain ⟨i, v⟩ := e
    intro x hx
    by_cases hij : i = j
    · simp only [Sparse.erase, hij, if_true] at hx
      exact ⟨by simp [(ih x hx).1], (ih x hx).2⟩
    · simp only [Sparse.erase, hij, if_false, List.mem_cons] at hx
      rcases hx with rfl | hx
      · exact ⟨by simp, hij⟩
      · exact ⟨by simp [(ih x hx).1], (ih x hx).2⟩

variable [DecidableEq α]

/-- A read after a write: the value written at its key, and what was there at every other. -/
theorem Sparse.get_set (d : α) (m : Sparse α) (j k : Nat) (v : α) :
    Sparse.get d (Sparse.set d m j v) k = if j = k then v else Sparse.get d m k := by
  unfold Sparse.set
  by_cases hv : v = d
  · simp only [hv, if_true, Sparse.get_erase]
  · simp only [hv, if_false]
    rw [Sparse.get_insert d _ j k v (fun e he => (Sparse.mem_erase m j e he).2), Sparse.get_erase]
    split <;> rfl

@[simp] theorem Sparse.get_set_same (d : α) (m : Sparse α) (k : Nat) (v : α) :
    Sparse.get d (Sparse.set d m k v) k = v := by simp [Sparse.get_set]

theorem Sparse.get_set_ne (d : α) (m : Sparse α) {j k : Nat} (v : α) (h : j ≠ k) :
    Sparse.get d (Sparse.set d m j v) k = Sparse.get d m k := by simp [Sparse.get_set, h]

theorem Sparse.get_modify (d : α) (m : Sparse α) (j k : Nat) (f : α → α) :
    Sparse.get d (Sparse.modify d m j f) k = if j = k then f (Sparse.get d m k) else Sparse.get d m k := by
  unfold Sparse.modify
  rw [Sparse.get_set]
  split
  · next h => rw [h]
  · rfl

/-! ### The canonical form -/

theorem Sparse.wfFrom_mono (d : α) (m : Sparse α) {a b : Nat} (h : a ≤ b) (w : Sparse.wfFrom d b m = true) :
    Sparse.wfFrom d a m = true := by
  cases m with
  | nil => rfl
  | cons e m =>
    obtain ⟨k, v⟩ := e
    simp only [Sparse.wfFrom, Bool.and_eq_true, decide_eq_true_eq] at w ⊢
    exact ⟨⟨Nat.le_trans h w.1.1, w.1.2⟩, w.2⟩

theorem Sparse.wfFrom_erase (d : α) (m : Sparse α) (b k : Nat) (w : Sparse.wfFrom d b m = true) :
    Sparse.wfFrom d b (Sparse.erase m k) = true := by
  induction m generalizing b with
  | nil => rfl
  | cons e m ih =>
    obtain ⟨i, v⟩ := e
    simp only [Sparse.wfFrom, Bool.and_eq_true, decide_eq_true_eq] at w
    by_cases h : i = k
    · simp only [Sparse.erase, h, if_true]
      exact ih b (Sparse.wfFrom_mono d m (by omega) w.2)
    · simp only [Sparse.erase, h, if_false, Sparse.wfFrom, Bool.and_eq_true, decide_eq_true_eq]
      exact ⟨w.1, ih _ w.2⟩

theorem Sparse.wfFrom_insert (d : α) (m : Sparse α) (b k : Nat) (v : α) (hb : b ≤ k) (hv : v ≠ d)
    (hk : ∀ e ∈ m, e.1 ≠ k) (w : Sparse.wfFrom d b m = true) : Sparse.wfFrom d b (Sparse.insert m k v) = true := by
  induction m generalizing b with
  | nil => simp [Sparse.insert, Sparse.wfFrom, hb, hv]
  | cons e m ih =>
    obtain ⟨i, x⟩ := e
    have hi : i ≠ k := hk (i, x) (by simp)
    simp only [Sparse.wfFrom, Bool.and_eq_true, decide_eq_true_eq] at w
    by_cases h : k < i
    · simp only [Sparse.insert, h, if_true, Sparse.wfFrom, Bool.and_eq_true, decide_eq_true_eq]
      exact ⟨⟨hb, hv⟩, ⟨by omega, w.1.2⟩, w.2⟩
    · simp only [Sparse.insert, h, if_false, Sparse.wfFrom, Bool.and_eq_true, decide_eq_true_eq]
      exact ⟨w.1, ih (i + 1) (by omega) (fun e he => hk e (by simp [he])) w.2⟩

/-- Writing keeps the canonical form. -/
theorem Sparse.wf_set (d : α) (m : Sparse α) (k : Nat) (v : α) (w : Sparse.wf d m = true) :
    Sparse.wf d (Sparse.set d m k v) = true := by
  unfold Sparse.wf Sparse.set at *
  split
  · exact Sparse.wfFrom_erase d m 0 k w
  · next hv =>
    exact Sparse.wfFrom_insert d _ 0 k v (Nat.zero_le k) hv (fun e he => (Sparse.mem_erase m k e he).2)
      (Sparse.wfFrom_erase d m 0 k w)

theorem Sparse.wf_modify (d : α) (m : Sparse α) (k : Nat) (f : α → α) (w : Sparse.wf d m = true) :
    Sparse.wf d (Sparse.modify d m k f) = true := Sparse.wf_set d m k _ w

@[simp] theorem Sparse.wf_nil (d : α) : Sparse.wf d [] = true := rfl

theorem Sparse.wfFrom_filter (d : α) (m : Sparse α) (b : Nat) (f : Nat × α → Bool) (w : Sparse.wfFrom d b m = true) :
    Sparse.wfFrom d b (m.filter f) = true := by
  induction m generalizing b with
  | nil => rfl
  | cons e m ih =>
    obtain ⟨k, v⟩ := e
    simp only [Sparse.wfFrom, Bool.and_eq_true, decide_eq_true_eq] at w
    by_cases h : f (k, v) = true
    · simp only [List.filter_cons, h, if_true, Sparse.wfFrom, Bool.and_eq_true, decide_eq_true_eq]
      exact ⟨w.1, ih _ w.2⟩
    · simp only [List.filter_cons, h]
      exact ih b (Sparse.wfFrom_mono d m (by omega) w.2)

/-- Dropping entries keeps the canonical form. -/
theorem Sparse.wf_filter (d : α) (m : Sparse α) (f : Nat × α → Bool) (w : Sparse.wf d m = true) :
    Sparse.wf d (m.filter f) = true := Sparse.wfFrom_filter d m 0 f w

theorem Sparse.wfFrom_mapVals (d : α) (m : Sparse α) (b : Nat) (f : α → α) (w : Sparse.wfFrom d b m = true) :
    Sparse.wfFrom d b (Sparse.mapVals d m f) = true := by
  induction m generalizing b with
  | nil => rfl
  | cons e m ih =>
    obtain ⟨k, v⟩ := e
    simp only [Sparse.wfFrom, Bool.and_eq_true, decide_eq_true_eq] at w
    have ih := ih (k + 1) w.2
    unfold Sparse.mapVals at ih ⊢
    by_cases h : f v = d
    · simp only [List.map_cons, List.filter_cons, h, ne_eq, not_true_eq_false, decide_false, Bool.false_eq_true, if_false]
      exact Sparse.wfFrom_mono d _ (by omega) ih
    · simp only [List.map_cons, List.filter_cons, ne_eq, h, not_false_eq_true, decide_true, if_true, Sparse.wfFrom,
        Bool.and_eq_true, decide_eq_true_eq]
      exact ⟨⟨w.1.1, trivial⟩, ih⟩

/-- Rewriting every value keeps the canonical form. -/
theorem Sparse.wf_mapVals (d : α) (m : Sparse α) (f : α → α) (w : Sparse.wf d m = true) :
    Sparse.wf d (Sparse.mapVals d m f) = true := Sparse.wfFrom_mapVals d m 0 f w

theorem Sparse.get_below (d : α) (m : Sparse α) {b k : Nat} (h : k < b) (w : Sparse.wfFrom d b m = true) :
    Sparse.get d m k = d := by
  induction m generalizing b with
  | nil => rfl
  | cons e m ih =>
    obtain ⟨i, v⟩ := e
    simp only [Sparse.wfFrom, Bool.and_eq_true, decide_eq_true_eq] at w
    have hi : i ≠ k := by omega
    rw [Sparse.get_cons, if_neg hi]
    exact ih (by omega) w.2

/-- What a rewritten table reads as, when the default is rewritten to itself. -/
theorem Sparse.get_mapVals (d : α) (m : Sparse α) (f : α → α) (hf : f d = d) (w : Sparse.wf d m = true) (k : Nat) :
    Sparse.get d (Sparse.mapVals d m f) k = f (Sparse.get d m k) := by
  unfold Sparse.wf at w
  generalize 0 = b at w
  induction m generalizing b with
  | nil => exact hf.symm
  | cons e m ih =>
    obtain ⟨i, v⟩ := e
    simp only [Sparse.wfFrom, Bool.and_eq_true, decide_eq_true_eq] at w
    have ih := ih (i + 1) w.2
    have below : i = k → Sparse.get d (Sparse.mapVals d m f) k = d := fun h =>
      Sparse.get_below d _ (by omega) (Sparse.wfFrom_mapVals d m (i + 1) f w.2)
    unfold Sparse.mapVals at ih below ⊢
    by_cases h : f v = d
    · simp only [List.map_cons, List.filter_cons, h, ne_eq, not_true_eq_false, decide_false, Bool.false_eq_true, if_false,
        Sparse.get_cons]
      by_cases hi : i = k
      · simp only [hi, if_true, h]
        exact below hi
      · simp only [hi, if_false]
        exact ih
    · simp only [List.map_cons, List.filter_cons, ne_eq, h, not_false_eq_true, decide_true, if_true, Sparse.get_cons]
      by_cases hi : i = k
      · simp only [hi, if_true]
      · simp only [hi, if_false]
        exact ih

/-- Tables in canonical form that read alike are equal. -/
theorem Sparse.ext_wf (d : α) (m n : Sparse α) (wm : Sparse.wf d m = true) (wn : Sparse.wf d n = true)
    (h : ∀ k, Sparse.get d m k = Sparse.get d n k) : m = n := by
  unfold Sparse.wf at wm wn
  generalize 0 = b at wm wn
  induction m generalizing n b with
  | nil =>
    cases n with
    | nil => rfl
    | cons e n =>
      obtain ⟨j, v⟩ := e
      simp only [Sparse.wfFrom, Bool.and_eq_true, decide_eq_true_eq] at wn
      have := h j
      rw [Sparse.get_nil, Sparse.get_cons, if_pos rfl] at this
      exact absurd this.symm wn.1.2
  | cons e m ih =>
    obtain ⟨i, v⟩ := e
    simp only [Sparse.wfFrom, Bool.and_eq_true, decide_eq_true_eq] at wm
    cases n with
    | nil =>
      have := h i
      rw [Sparse.get_nil, Sparse.get_cons, if_pos rfl] at this
      exact absurd this wm.1.2
    | cons e n =>
      obtain ⟨j, x⟩ := e
      simp only [Sparse.wfFrom, Bool.and_eq_true, decide_eq_true_eq] at wn
      have hij : i = j := by
        rcases Nat.lt_trichotomy i j with hlt | heq | hgt
        · have := h i
          rw [Sparse.get_cons, Sparse.get_cons, if_pos rfl, if_neg (by omega), Sparse.get_below d n (by omega) wn.2] at this
          exact absurd this wm.1.2
        · exact heq
        · have := h j
          rw [Sparse.get_cons, Sparse.get_cons, if_pos rfl, if_neg (by omega), Sparse.get_below d m (by omega) wm.2] at this
          exact absurd this.symm wn.1.2
      subst hij
      have hv : v = x := by
        have := h i
        simpa using this
      subst hv
      congr 1
      refine ih n (fun k => ?_) (i + 1) wm.2 wn.2
      by_cases hk : i = k
      · rw [Sparse.get_below d m (by omega) wm.2, Sparse.get_below d n (by omega) wn.2]
      · have := h k
        simpa [hk] using this

end Sys2Proof.Machine
end

