-- ==== Sys2Proof/Laws/State.lean ====
section
/-! SUPPORT. What each named update leaves alone, one field at a time, and what the field it changes becomes. -/

namespace Sys2Proof.Machine


/-! #### setTile -/

@[simp] theorem State.setTile_pending (s : State) (p : Nat) (t : Tile) : (s.setTile p t).pending = s.pending := rfl
@[simp] theorem State.setTile_mesh (s : State) (p : Nat) (t : Tile) : (s.setTile p t).mesh = s.mesh := rfl
@[simp] theorem State.setTile_mem (s : State) (p : Nat) (t : Tile) : (s.setTile p t).mem = s.mem := rfl
@[simp] theorem State.setTile_inv (s : State) (p : Nat) (t : Tile) : (s.setTile p t).inv = s.inv := rfl
@[simp] theorem State.setTile_cur (s : State) (p : Nat) (t : Tile) : (s.setTile p t).cur = s.cur := rfl
@[simp] theorem State.setTile_arc (s : State) (p : Nat) (t : Tile) : (s.setTile p t).arc = s.arc := rfl
@[simp] theorem State.setTile_tx (s : State) (p : Nat) (t : Tile) : (s.setTile p t).tx = s.tx := rfl
@[simp] theorem State.setTile_ports (s : State) (p : Nat) (t : Tile) : (s.setTile p t).ports = s.ports := rfl
@[simp] theorem State.setTile_convs (s : State) (p : Nat) (t : Tile) : (s.setTile p t).convs = s.convs := rfl
@[simp] theorem State.setTile_colls (s : State) (p : Nat) (t : Tile) : (s.setTile p t).colls = s.colls := rfl
@[simp] theorem State.setTile_casts (s : State) (p : Nat) (t : Tile) : (s.setTile p t).casts = s.casts := rfl
@[simp] theorem State.setTile_rng (s : State) (p : Nat) (t : Tile) : (s.setTile p t).rng = s.rng := rfl
@[simp] theorem State.setTile_set (s : State) (p : Nat) (t : Tile) : (s.setTile p t).set = s.set := rfl
@[simp] theorem State.setTile_boot (s : State) (p : Nat) (t : Tile) : (s.setTile p t).boot = s.boot := rfl
@[simp] theorem State.setTile_fuses (s : State) (p : Nat) (t : Tile) : (s.setTile p t).fuses = s.fuses := rfl
@[simp] theorem State.setTile_arbs (s : State) (p : Nat) (t : Tile) : (s.setTile p t).arbs = s.arbs := rfl
@[simp] theorem State.setTile_transit (s : State) (p : Nat) (t : Tile) : (s.setTile p t).transit = s.transit := rfl
@[simp] theorem State.setTile_power (s : State) (p : Nat) (t : Tile) : (s.setTile p t).power = s.power := rfl
@[simp] theorem State.setTile_contacts (s : State) (p : Nat) (t : Tile) : (s.setTile p t).contacts = s.contacts := rfl
@[simp] theorem State.setTile_clocks (s : State) (p : Nat) (t : Tile) : (s.setTile p t).clocks = s.clocks := rfl
@[simp] theorem State.setTile_counters (s : State) (p : Nat) (t : Tile) : (s.setTile p t).counters = s.counters := rfl
@[simp] theorem State.setTile_trace (s : State) (p : Nat) (t : Tile) : (s.setTile p t).trace = s.trace := rfl
@[simp] theorem State.setTile_free (s : State) (p : Nat) (t : Tile) : (s.setTile p t).free = s.free := rfl
@[simp] theorem State.setTile_timers (s : State) (p : Nat) (t : Tile) : (s.setTile p t).timers = s.timers := rfl

/-! #### updTile -/

@[simp] theorem State.updTile_pending (s : State) (p : Nat) (f : Tile → Tile) : (s.updTile p f).pending = s.pending := rfl
@[simp] theorem State.updTile_mesh (s : State) (p : Nat) (f : Tile → Tile) : (s.updTile p f).mesh = s.mesh := rfl
@[simp] theorem State.updTile_mem (s : State) (p : Nat) (f : Tile → Tile) : (s.updTile p f).mem = s.mem := rfl
@[simp] theorem State.updTile_inv (s : State) (p : Nat) (f : Tile → Tile) : (s.updTile p f).inv = s.inv := rfl
@[simp] theorem State.updTile_cur (s : State) (p : Nat) (f : Tile → Tile) : (s.updTile p f).cur = s.cur := rfl
@[simp] theorem State.updTile_arc (s : State) (p : Nat) (f : Tile → Tile) : (s.updTile p f).arc = s.arc := rfl
@[simp] theorem State.updTile_tx (s : State) (p : Nat) (f : Tile → Tile) : (s.updTile p f).tx = s.tx := rfl
@[simp] theorem State.updTile_ports (s : State) (p : Nat) (f : Tile → Tile) : (s.updTile p f).ports = s.ports := rfl
@[simp] theorem State.updTile_convs (s : State) (p : Nat) (f : Tile → Tile) : (s.updTile p f).convs = s.convs := rfl
@[simp] theorem State.updTile_colls (s : State) (p : Nat) (f : Tile → Tile) : (s.updTile p f).colls = s.colls := rfl
@[simp] theorem State.updTile_casts (s : State) (p : Nat) (f : Tile → Tile) : (s.updTile p f).casts = s.casts := rfl
@[simp] theorem State.updTile_rng (s : State) (p : Nat) (f : Tile → Tile) : (s.updTile p f).rng = s.rng := rfl
@[simp] theorem State.updTile_set (s : State) (p : Nat) (f : Tile → Tile) : (s.updTile p f).set = s.set := rfl
@[simp] theorem State.updTile_boot (s : State) (p : Nat) (f : Tile → Tile) : (s.updTile p f).boot = s.boot := rfl
@[simp] theorem State.updTile_fuses (s : State) (p : Nat) (f : Tile → Tile) : (s.updTile p f).fuses = s.fuses := rfl
@[simp] theorem State.updTile_arbs (s : State) (p : Nat) (f : Tile → Tile) : (s.updTile p f).arbs = s.arbs := rfl
@[simp] theorem State.updTile_transit (s : State) (p : Nat) (f : Tile → Tile) : (s.updTile p f).transit = s.transit := rfl
@[simp] theorem State.updTile_power (s : State) (p : Nat) (f : Tile → Tile) : (s.updTile p f).power = s.power := rfl
@[simp] theorem State.updTile_contacts (s : State) (p : Nat) (f : Tile → Tile) : (s.updTile p f).contacts = s.contacts := rfl
@[simp] theorem State.updTile_clocks (s : State) (p : Nat) (f : Tile → Tile) : (s.updTile p f).clocks = s.clocks := rfl
@[simp] theorem State.updTile_counters (s : State) (p : Nat) (f : Tile → Tile) : (s.updTile p f).counters = s.counters := rfl
@[simp] theorem State.updTile_trace (s : State) (p : Nat) (f : Tile → Tile) : (s.updTile p f).trace = s.trace := rfl
@[simp] theorem State.updTile_free (s : State) (p : Nat) (f : Tile → Tile) : (s.updTile p f).free = s.free := rfl
@[simp] theorem State.updTile_timers (s : State) (p : Nat) (f : Tile → Tile) : (s.updTile p f).timers = s.timers := rfl

/-! #### setEnt -/

@[simp] theorem State.setEnt_pending (s : State) (p : Nat) (e : TileEnt) : (s.setEnt p e).pending = s.pending := rfl
@[simp] theorem State.setEnt_tiles (s : State) (p : Nat) (e : TileEnt) : (s.setEnt p e).tiles = s.tiles := rfl
@[simp] theorem State.setEnt_mesh (s : State) (p : Nat) (e : TileEnt) : (s.setEnt p e).mesh = s.mesh := rfl
@[simp] theorem State.setEnt_mem (s : State) (p : Nat) (e : TileEnt) : (s.setEnt p e).mem = s.mem := rfl
@[simp] theorem State.setEnt_cur (s : State) (p : Nat) (e : TileEnt) : (s.setEnt p e).cur = s.cur := rfl
@[simp] theorem State.setEnt_arc (s : State) (p : Nat) (e : TileEnt) : (s.setEnt p e).arc = s.arc := rfl
@[simp] theorem State.setEnt_tx (s : State) (p : Nat) (e : TileEnt) : (s.setEnt p e).tx = s.tx := rfl
@[simp] theorem State.setEnt_ports (s : State) (p : Nat) (e : TileEnt) : (s.setEnt p e).ports = s.ports := rfl
@[simp] theorem State.setEnt_convs (s : State) (p : Nat) (e : TileEnt) : (s.setEnt p e).convs = s.convs := rfl
@[simp] theorem State.setEnt_colls (s : State) (p : Nat) (e : TileEnt) : (s.setEnt p e).colls = s.colls := rfl
@[simp] theorem State.setEnt_casts (s : State) (p : Nat) (e : TileEnt) : (s.setEnt p e).casts = s.casts := rfl
@[simp] theorem State.setEnt_rng (s : State) (p : Nat) (e : TileEnt) : (s.setEnt p e).rng = s.rng := rfl
@[simp] theorem State.setEnt_set (s : State) (p : Nat) (e : TileEnt) : (s.setEnt p e).set = s.set := rfl
@[simp] theorem State.setEnt_boot (s : State) (p : Nat) (e : TileEnt) : (s.setEnt p e).boot = s.boot := rfl
@[simp] theorem State.setEnt_fuses (s : State) (p : Nat) (e : TileEnt) : (s.setEnt p e).fuses = s.fuses := rfl
@[simp] theorem State.setEnt_arbs (s : State) (p : Nat) (e : TileEnt) : (s.setEnt p e).arbs = s.arbs := rfl
@[simp] theorem State.setEnt_transit (s : State) (p : Nat) (e : TileEnt) : (s.setEnt p e).transit = s.transit := rfl
@[simp] theorem State.setEnt_power (s : State) (p : Nat) (e : TileEnt) : (s.setEnt p e).power = s.power := rfl
@[simp] theorem State.setEnt_contacts (s : State) (p : Nat) (e : TileEnt) : (s.setEnt p e).contacts = s.contacts := rfl
@[simp] theorem State.setEnt_clocks (s : State) (p : Nat) (e : TileEnt) : (s.setEnt p e).clocks = s.clocks := rfl
@[simp] theorem State.setEnt_counters (s : State) (p : Nat) (e : TileEnt) : (s.setEnt p e).counters = s.counters := rfl
@[simp] theorem State.setEnt_trace (s : State) (p : Nat) (e : TileEnt) : (s.setEnt p e).trace = s.trace := rfl
@[simp] theorem State.setEnt_free (s : State) (p : Nat) (e : TileEnt) : (s.setEnt p e).free = s.free := rfl
@[simp] theorem State.setEnt_timers (s : State) (p : Nat) (e : TileEnt) : (s.setEnt p e).timers = s.timers := rfl

/-! #### setChannel -/

@[simp] theorem State.setChannel_pending (s : State) (c : Nat) (x : Channel) : (s.setChannel c x).pending = s.pending := rfl
@[simp] theorem State.setChannel_tiles (s : State) (c : Nat) (x : Channel) : (s.setChannel c x).tiles = s.tiles := rfl
@[simp] theorem State.setChannel_mesh (s : State) (c : Nat) (x : Channel) : (s.setChannel c x).mesh = s.mesh := rfl
@[simp] theorem State.setChannel_inv (s : State) (c : Nat) (x : Channel) : (s.setChannel c x).inv = s.inv := rfl
@[simp] theorem State.setChannel_cur (s : State) (c : Nat) (x : Channel) : (s.setChannel c x).cur = s.cur := rfl
@[simp] theorem State.setChannel_arc (s : State) (c : Nat) (x : Channel) : (s.setChannel c x).arc = s.arc := rfl
@[simp] theorem State.setChannel_tx (s : State) (c : Nat) (x : Channel) : (s.setChannel c x).tx = s.tx := rfl
@[simp] theorem State.setChannel_ports (s : State) (c : Nat) (x : Channel) : (s.setChannel c x).ports = s.ports := rfl
@[simp] theorem State.setChannel_convs (s : State) (c : Nat) (x : Channel) : (s.setChannel c x).convs = s.convs := rfl
@[simp] theorem State.setChannel_colls (s : State) (c : Nat) (x : Channel) : (s.setChannel c x).colls = s.colls := rfl
@[simp] theorem State.setChannel_casts (s : State) (c : Nat) (x : Channel) : (s.setChannel c x).casts = s.casts := rfl
@[simp] theorem State.setChannel_rng (s : State) (c : Nat) (x : Channel) : (s.setChannel c x).rng = s.rng := rfl
@[simp] theorem State.setChannel_set (s : State) (c : Nat) (x : Channel) : (s.setChannel c x).set = s.set := rfl
@[simp] theorem State.setChannel_boot (s : State) (c : Nat) (x : Channel) : (s.setChannel c x).boot = s.boot := rfl
@[simp] theorem State.setChannel_fuses (s : State) (c : Nat) (x : Channel) : (s.setChannel c x).fuses = s.fuses := rfl
@[simp] theorem State.setChannel_arbs (s : State) (c : Nat) (x : Channel) : (s.setChannel c x).arbs = s.arbs := rfl
@[simp] theorem State.setChannel_transit (s : State) (c : Nat) (x : Channel) : (s.setChannel c x).transit = s.transit := rfl
@[simp] theorem State.setChannel_power (s : State) (c : Nat) (x : Channel) : (s.setChannel c x).power = s.power := rfl
@[simp] theorem State.setChannel_contacts (s : State) (c : Nat) (x : Channel) : (s.setChannel c x).contacts = s.contacts := rfl
@[simp] theorem State.setChannel_clocks (s : State) (c : Nat) (x : Channel) : (s.setChannel c x).clocks = s.clocks := rfl
@[simp] theorem State.setChannel_counters (s : State) (c : Nat) (x : Channel) : (s.setChannel c x).counters = s.counters := rfl
@[simp] theorem State.setChannel_trace (s : State) (c : Nat) (x : Channel) : (s.setChannel c x).trace = s.trace := rfl
@[simp] theorem State.setChannel_free (s : State) (c : Nat) (x : Channel) : (s.setChannel c x).free = s.free := rfl
@[simp] theorem State.setChannel_timers (s : State) (c : Nat) (x : Channel) : (s.setChannel c x).timers = s.timers := rfl

/-! #### setPort -/

@[simp] theorem State.setPort_pending (s : State) (p : Nat) (c : CwyPort) : (s.setPort p c).pending = s.pending := rfl
@[simp] theorem State.setPort_tiles (s : State) (p : Nat) (c : CwyPort) : (s.setPort p c).tiles = s.tiles := rfl
@[simp] theorem State.setPort_mesh (s : State) (p : Nat) (c : CwyPort) : (s.setPort p c).mesh = s.mesh := rfl
@[simp] theorem State.setPort_mem (s : State) (p : Nat) (c : CwyPort) : (s.setPort p c).mem = s.mem := rfl
@[simp] theorem State.setPort_inv (s : State) (p : Nat) (c : CwyPort) : (s.setPort p c).inv = s.inv := rfl
@[simp] theorem State.setPort_cur (s : State) (p : Nat) (c : CwyPort) : (s.setPort p c).cur = s.cur := rfl
@[simp] theorem State.setPort_arc (s : State) (p : Nat) (c : CwyPort) : (s.setPort p c).arc = s.arc := rfl
@[simp] theorem State.setPort_tx (s : State) (p : Nat) (c : CwyPort) : (s.setPort p c).tx = s.tx := rfl
@[simp] theorem State.setPort_convs (s : State) (p : Nat) (c : CwyPort) : (s.setPort p c).convs = s.convs := rfl
@[simp] theorem State.setPort_colls (s : State) (p : Nat) (c : CwyPort) : (s.setPort p c).colls = s.colls := rfl
@[simp] theorem State.setPort_casts (s : State) (p : Nat) (c : CwyPort) : (s.setPort p c).casts = s.casts := rfl
@[simp] theorem State.setPort_rng (s : State) (p : Nat) (c : CwyPort) : (s.setPort p c).rng = s.rng := rfl
@[simp] theorem State.setPort_set (s : State) (p : Nat) (c : CwyPort) : (s.setPort p c).set = s.set := rfl
@[simp] theorem State.setPort_boot (s : State) (p : Nat) (c : CwyPort) : (s.setPort p c).boot = s.boot := rfl
@[simp] theorem State.setPort_fuses (s : State) (p : Nat) (c : CwyPort) : (s.setPort p c).fuses = s.fuses := rfl
@[simp] theorem State.setPort_arbs (s : State) (p : Nat) (c : CwyPort) : (s.setPort p c).arbs = s.arbs := rfl
@[simp] theorem State.setPort_transit (s : State) (p : Nat) (c : CwyPort) : (s.setPort p c).transit = s.transit := rfl
@[simp] theorem State.setPort_power (s : State) (p : Nat) (c : CwyPort) : (s.setPort p c).power = s.power := rfl
@[simp] theorem State.setPort_contacts (s : State) (p : Nat) (c : CwyPort) : (s.setPort p c).contacts = s.contacts := rfl
@[simp] theorem State.setPort_clocks (s : State) (p : Nat) (c : CwyPort) : (s.setPort p c).clocks = s.clocks := rfl
@[simp] theorem State.setPort_counters (s : State) (p : Nat) (c : CwyPort) : (s.setPort p c).counters = s.counters := rfl
@[simp] theorem State.setPort_trace (s : State) (p : Nat) (c : CwyPort) : (s.setPort p c).trace = s.trace := rfl
@[simp] theorem State.setPort_free (s : State) (p : Nat) (c : CwyPort) : (s.setPort p c).free = s.free := rfl
@[simp] theorem State.setPort_timers (s : State) (p : Nat) (c : CwyPort) : (s.setPort p c).timers = s.timers := rfl

/-! #### setArb -/

@[simp] theorem State.setArb_pending (s : State) (r : ResId) (x : Arb) : (s.setArb r x).pending = s.pending := rfl
@[simp] theorem State.setArb_tiles (s : State) (r : ResId) (x : Arb) : (s.setArb r x).tiles = s.tiles := rfl
@[simp] theorem State.setArb_mesh (s : State) (r : ResId) (x : Arb) : (s.setArb r x).mesh = s.mesh := rfl
@[simp] theorem State.setArb_mem (s : State) (r : ResId) (x : Arb) : (s.setArb r x).mem = s.mem := rfl
@[simp] theorem State.setArb_inv (s : State) (r : ResId) (x : Arb) : (s.setArb r x).inv = s.inv := rfl
@[simp] theorem State.setArb_cur (s : State) (r : ResId) (x : Arb) : (s.setArb r x).cur = s.cur := rfl
@[simp] theorem State.setArb_arc (s : State) (r : ResId) (x : Arb) : (s.setArb r x).arc = s.arc := rfl
@[simp] theorem State.setArb_tx (s : State) (r : ResId) (x : Arb) : (s.setArb r x).tx = s.tx := rfl
@[simp] theorem State.setArb_ports (s : State) (r : ResId) (x : Arb) : (s.setArb r x).ports = s.ports := rfl
@[simp] theorem State.setArb_convs (s : State) (r : ResId) (x : Arb) : (s.setArb r x).convs = s.convs := rfl
@[simp] theorem State.setArb_colls (s : State) (r : ResId) (x : Arb) : (s.setArb r x).colls = s.colls := rfl
@[simp] theorem State.setArb_casts (s : State) (r : ResId) (x : Arb) : (s.setArb r x).casts = s.casts := rfl
@[simp] theorem State.setArb_rng (s : State) (r : ResId) (x : Arb) : (s.setArb r x).rng = s.rng := rfl
@[simp] theorem State.setArb_set (s : State) (r : ResId) (x : Arb) : (s.setArb r x).set = s.set := rfl
@[simp] theorem State.setArb_boot (s : State) (r : ResId) (x : Arb) : (s.setArb r x).boot = s.boot := rfl
@[simp] theorem State.setArb_fuses (s : State) (r : ResId) (x : Arb) : (s.setArb r x).fuses = s.fuses := rfl
@[simp] theorem State.setArb_transit (s : State) (r : ResId) (x : Arb) : (s.setArb r x).transit = s.transit := rfl
@[simp] theorem State.setArb_power (s : State) (r : ResId) (x : Arb) : (s.setArb r x).power = s.power := rfl
@[simp] theorem State.setArb_contacts (s : State) (r : ResId) (x : Arb) : (s.setArb r x).contacts = s.contacts := rfl
@[simp] theorem State.setArb_clocks (s : State) (r : ResId) (x : Arb) : (s.setArb r x).clocks = s.clocks := rfl
@[simp] theorem State.setArb_counters (s : State) (r : ResId) (x : Arb) : (s.setArb r x).counters = s.counters := rfl
@[simp] theorem State.setArb_trace (s : State) (r : ResId) (x : Arb) : (s.setArb r x).trace = s.trace := rfl
@[simp] theorem State.setArb_free (s : State) (r : ResId) (x : Arb) : (s.setArb r x).free = s.free := rfl
@[simp] theorem State.setArb_timers (s : State) (r : ResId) (x : Arb) : (s.setArb r x).timers = s.timers := rfl

/-! #### setClock -/

@[simp] theorem State.setClock_pending (s : State) (d : Nat) (c : Clock) : (s.setClock d c).pending = s.pending := rfl
@[simp] theorem State.setClock_tiles (s : State) (d : Nat) (c : Clock) : (s.setClock d c).tiles = s.tiles := rfl
@[simp] theorem State.setClock_mesh (s : State) (d : Nat) (c : Clock) : (s.setClock d c).mesh = s.mesh := rfl
@[simp] theorem State.setClock_mem (s : State) (d : Nat) (c : Clock) : (s.setClock d c).mem = s.mem := rfl
@[simp] theorem State.setClock_inv (s : State) (d : Nat) (c : Clock) : (s.setClock d c).inv = s.inv := rfl
@[simp] theorem State.setClock_cur (s : State) (d : Nat) (c : Clock) : (s.setClock d c).cur = s.cur := rfl
@[simp] theorem State.setClock_arc (s : State) (d : Nat) (c : Clock) : (s.setClock d c).arc = s.arc := rfl
@[simp] theorem State.setClock_tx (s : State) (d : Nat) (c : Clock) : (s.setClock d c).tx = s.tx := rfl
@[simp] theorem State.setClock_ports (s : State) (d : Nat) (c : Clock) : (s.setClock d c).ports = s.ports := rfl
@[simp] theorem State.setClock_convs (s : State) (d : Nat) (c : Clock) : (s.setClock d c).convs = s.convs := rfl
@[simp] theorem State.setClock_colls (s : State) (d : Nat) (c : Clock) : (s.setClock d c).colls = s.colls := rfl
@[simp] theorem State.setClock_casts (s : State) (d : Nat) (c : Clock) : (s.setClock d c).casts = s.casts := rfl
@[simp] theorem State.setClock_rng (s : State) (d : Nat) (c : Clock) : (s.setClock d c).rng = s.rng := rfl
@[simp] theorem State.setClock_set (s : State) (d : Nat) (c : Clock) : (s.setClock d c).set = s.set := rfl
@[simp] theorem State.setClock_boot (s : State) (d : Nat) (c : Clock) : (s.setClock d c).boot = s.boot := rfl
@[simp] theorem State.setClock_fuses (s : State) (d : Nat) (c : Clock) : (s.setClock d c).fuses = s.fuses := rfl
@[simp] theorem State.setClock_arbs (s : State) (d : Nat) (c : Clock) : (s.setClock d c).arbs = s.arbs := rfl
@[simp] theorem State.setClock_transit (s : State) (d : Nat) (c : Clock) : (s.setClock d c).transit = s.transit := rfl
@[simp] theorem State.setClock_power (s : State) (d : Nat) (c : Clock) : (s.setClock d c).power = s.power := rfl
@[simp] theorem State.setClock_contacts (s : State) (d : Nat) (c : Clock) : (s.setClock d c).contacts = s.contacts := rfl
@[simp] theorem State.setClock_counters (s : State) (d : Nat) (c : Clock) : (s.setClock d c).counters = s.counters := rfl
@[simp] theorem State.setClock_trace (s : State) (d : Nat) (c : Clock) : (s.setClock d c).trace = s.trace := rfl
@[simp] theorem State.setClock_free (s : State) (d : Nat) (c : Clock) : (s.setClock d c).free = s.free := rfl
@[simp] theorem State.setClock_timers (s : State) (d : Nat) (c : Clock) : (s.setClock d c).timers = s.timers := rfl

/-! #### post -/

@[simp] theorem State.post_pending (s : State) (m : Mesh) : (s.post m).pending = s.pending := rfl
@[simp] theorem State.post_tiles (s : State) (m : Mesh) : (s.post m).tiles = s.tiles := rfl
@[simp] theorem State.post_mem (s : State) (m : Mesh) : (s.post m).mem = s.mem := rfl
@[simp] theorem State.post_inv (s : State) (m : Mesh) : (s.post m).inv = s.inv := rfl
@[simp] theorem State.post_cur (s : State) (m : Mesh) : (s.post m).cur = s.cur := rfl
@[simp] theorem State.post_arc (s : State) (m : Mesh) : (s.post m).arc = s.arc := rfl
@[simp] theorem State.post_tx (s : State) (m : Mesh) : (s.post m).tx = s.tx := rfl
@[simp] theorem State.post_ports (s : State) (m : Mesh) : (s.post m).ports = s.ports := rfl
@[simp] theorem State.post_convs (s : State) (m : Mesh) : (s.post m).convs = s.convs := rfl
@[simp] theorem State.post_colls (s : State) (m : Mesh) : (s.post m).colls = s.colls := rfl
@[simp] theorem State.post_casts (s : State) (m : Mesh) : (s.post m).casts = s.casts := rfl
@[simp] theorem State.post_rng (s : State) (m : Mesh) : (s.post m).rng = s.rng := rfl
@[simp] theorem State.post_set (s : State) (m : Mesh) : (s.post m).set = s.set := rfl
@[simp] theorem State.post_boot (s : State) (m : Mesh) : (s.post m).boot = s.boot := rfl
@[simp] theorem State.post_fuses (s : State) (m : Mesh) : (s.post m).fuses = s.fuses := rfl
@[simp] theorem State.post_arbs (s : State) (m : Mesh) : (s.post m).arbs = s.arbs := rfl
@[simp] theorem State.post_transit (s : State) (m : Mesh) : (s.post m).transit = s.transit := rfl
@[simp] theorem State.post_power (s : State) (m : Mesh) : (s.post m).power = s.power := rfl
@[simp] theorem State.post_contacts (s : State) (m : Mesh) : (s.post m).contacts = s.contacts := rfl
@[simp] theorem State.post_clocks (s : State) (m : Mesh) : (s.post m).clocks = s.clocks := rfl
@[simp] theorem State.post_counters (s : State) (m : Mesh) : (s.post m).counters = s.counters := rfl
@[simp] theorem State.post_trace (s : State) (m : Mesh) : (s.post m).trace = s.trace := rfl
@[simp] theorem State.post_free (s : State) (m : Mesh) : (s.post m).free = s.free := rfl
@[simp] theorem State.post_timers (s : State) (m : Mesh) : (s.post m).timers = s.timers := rfl

/-! #### send -/

@[simp] theorem State.send_pending (s : State) (x : Tx) : (s.send x).pending = s.pending := rfl
@[simp] theorem State.send_tiles (s : State) (x : Tx) : (s.send x).tiles = s.tiles := rfl
@[simp] theorem State.send_mesh (s : State) (x : Tx) : (s.send x).mesh = s.mesh := rfl
@[simp] theorem State.send_mem (s : State) (x : Tx) : (s.send x).mem = s.mem := rfl
@[simp] theorem State.send_inv (s : State) (x : Tx) : (s.send x).inv = s.inv := rfl
@[simp] theorem State.send_cur (s : State) (x : Tx) : (s.send x).cur = s.cur := rfl
@[simp] theorem State.send_arc (s : State) (x : Tx) : (s.send x).arc = s.arc := rfl
@[simp] theorem State.send_ports (s : State) (x : Tx) : (s.send x).ports = s.ports := rfl
@[simp] theorem State.send_convs (s : State) (x : Tx) : (s.send x).convs = s.convs := rfl
@[simp] theorem State.send_colls (s : State) (x : Tx) : (s.send x).colls = s.colls := rfl
@[simp] theorem State.send_casts (s : State) (x : Tx) : (s.send x).casts = s.casts := rfl
@[simp] theorem State.send_rng (s : State) (x : Tx) : (s.send x).rng = s.rng := rfl
@[simp] theorem State.send_set (s : State) (x : Tx) : (s.send x).set = s.set := rfl
@[simp] theorem State.send_boot (s : State) (x : Tx) : (s.send x).boot = s.boot := rfl
@[simp] theorem State.send_fuses (s : State) (x : Tx) : (s.send x).fuses = s.fuses := rfl
@[simp] theorem State.send_arbs (s : State) (x : Tx) : (s.send x).arbs = s.arbs := rfl
@[simp] theorem State.send_transit (s : State) (x : Tx) : (s.send x).transit = s.transit := rfl
@[simp] theorem State.send_power (s : State) (x : Tx) : (s.send x).power = s.power := rfl
@[simp] theorem State.send_contacts (s : State) (x : Tx) : (s.send x).contacts = s.contacts := rfl
@[simp] theorem State.send_clocks (s : State) (x : Tx) : (s.send x).clocks = s.clocks := rfl
@[simp] theorem State.send_counters (s : State) (x : Tx) : (s.send x).counters = s.counters := rfl
@[simp] theorem State.send_trace (s : State) (x : Tx) : (s.send x).trace = s.trace := rfl
@[simp] theorem State.send_free (s : State) (x : Tx) : (s.send x).free = s.free := rfl
@[simp] theorem State.send_timers (s : State) (x : Tx) : (s.send x).timers = s.timers := rfl

/-! #### bump -/

@[simp] theorem State.bump_pending (s : State) (c h n : Nat) : (s.bump c h n).pending = s.pending := rfl
@[simp] theorem State.bump_tiles (s : State) (c h n : Nat) : (s.bump c h n).tiles = s.tiles := rfl
@[simp] theorem State.bump_mesh (s : State) (c h n : Nat) : (s.bump c h n).mesh = s.mesh := rfl
@[simp] theorem State.bump_mem (s : State) (c h n : Nat) : (s.bump c h n).mem = s.mem := rfl
@[simp] theorem State.bump_inv (s : State) (c h n : Nat) : (s.bump c h n).inv = s.inv := rfl
@[simp] theorem State.bump_cur (s : State) (c h n : Nat) : (s.bump c h n).cur = s.cur := rfl
@[simp] theorem State.bump_arc (s : State) (c h n : Nat) : (s.bump c h n).arc = s.arc := rfl
@[simp] theorem State.bump_tx (s : State) (c h n : Nat) : (s.bump c h n).tx = s.tx := rfl
@[simp] theorem State.bump_ports (s : State) (c h n : Nat) : (s.bump c h n).ports = s.ports := rfl
@[simp] theorem State.bump_convs (s : State) (c h n : Nat) : (s.bump c h n).convs = s.convs := rfl
@[simp] theorem State.bump_colls (s : State) (c h n : Nat) : (s.bump c h n).colls = s.colls := rfl
@[simp] theorem State.bump_casts (s : State) (c h n : Nat) : (s.bump c h n).casts = s.casts := rfl
@[simp] theorem State.bump_rng (s : State) (c h n : Nat) : (s.bump c h n).rng = s.rng := rfl
@[simp] theorem State.bump_set (s : State) (c h n : Nat) : (s.bump c h n).set = s.set := rfl
@[simp] theorem State.bump_boot (s : State) (c h n : Nat) : (s.bump c h n).boot = s.boot := rfl
@[simp] theorem State.bump_fuses (s : State) (c h n : Nat) : (s.bump c h n).fuses = s.fuses := rfl
@[simp] theorem State.bump_arbs (s : State) (c h n : Nat) : (s.bump c h n).arbs = s.arbs := rfl
@[simp] theorem State.bump_transit (s : State) (c h n : Nat) : (s.bump c h n).transit = s.transit := rfl
@[simp] theorem State.bump_power (s : State) (c h n : Nat) : (s.bump c h n).power = s.power := rfl
@[simp] theorem State.bump_contacts (s : State) (c h n : Nat) : (s.bump c h n).contacts = s.contacts := rfl
@[simp] theorem State.bump_clocks (s : State) (c h n : Nat) : (s.bump c h n).clocks = s.clocks := rfl
@[simp] theorem State.bump_trace (s : State) (c h n : Nat) : (s.bump c h n).trace = s.trace := rfl
@[simp] theorem State.bump_free (s : State) (c h n : Nat) : (s.bump c h n).free = s.free := rfl
@[simp] theorem State.bump_timers (s : State) (c h n : Nat) : (s.bump c h n).timers = s.timers := rfl

/-! #### updCmd -/

@[simp] theorem State.updCmd_pending (s : State) (n : Nat) (f : Cmd → Cmd) : (s.updCmd n f).pending = s.pending := rfl
@[simp] theorem State.updCmd_tiles (s : State) (n : Nat) (f : Cmd → Cmd) : (s.updCmd n f).tiles = s.tiles := rfl
@[simp] theorem State.updCmd_mesh (s : State) (n : Nat) (f : Cmd → Cmd) : (s.updCmd n f).mesh = s.mesh := rfl
@[simp] theorem State.updCmd_mem (s : State) (n : Nat) (f : Cmd → Cmd) : (s.updCmd n f).mem = s.mem := rfl
@[simp] theorem State.updCmd_inv (s : State) (n : Nat) (f : Cmd → Cmd) : (s.updCmd n f).inv = s.inv := rfl
@[simp] theorem State.updCmd_arc (s : State) (n : Nat) (f : Cmd → Cmd) : (s.updCmd n f).arc = s.arc := rfl
@[simp] theorem State.updCmd_tx (s : State) (n : Nat) (f : Cmd → Cmd) : (s.updCmd n f).tx = s.tx := rfl
@[simp] theorem State.updCmd_ports (s : State) (n : Nat) (f : Cmd → Cmd) : (s.updCmd n f).ports = s.ports := rfl
@[simp] theorem State.updCmd_convs (s : State) (n : Nat) (f : Cmd → Cmd) : (s.updCmd n f).convs = s.convs := rfl
@[simp] theorem State.updCmd_colls (s : State) (n : Nat) (f : Cmd → Cmd) : (s.updCmd n f).colls = s.colls := rfl
@[simp] theorem State.updCmd_casts (s : State) (n : Nat) (f : Cmd → Cmd) : (s.updCmd n f).casts = s.casts := rfl
@[simp] theorem State.updCmd_rng (s : State) (n : Nat) (f : Cmd → Cmd) : (s.updCmd n f).rng = s.rng := rfl
@[simp] theorem State.updCmd_set (s : State) (n : Nat) (f : Cmd → Cmd) : (s.updCmd n f).set = s.set := rfl
@[simp] theorem State.updCmd_boot (s : State) (n : Nat) (f : Cmd → Cmd) : (s.updCmd n f).boot = s.boot := rfl
@[simp] theorem State.updCmd_fuses (s : State) (n : Nat) (f : Cmd → Cmd) : (s.updCmd n f).fuses = s.fuses := rfl
@[simp] theorem State.updCmd_arbs (s : State) (n : Nat) (f : Cmd → Cmd) : (s.updCmd n f).arbs = s.arbs := rfl
@[simp] theorem State.updCmd_transit (s : State) (n : Nat) (f : Cmd → Cmd) : (s.updCmd n f).transit = s.transit := rfl
@[simp] theorem State.updCmd_power (s : State) (n : Nat) (f : Cmd → Cmd) : (s.updCmd n f).power = s.power := rfl
@[simp] theorem State.updCmd_contacts (s : State) (n : Nat) (f : Cmd → Cmd) : (s.updCmd n f).contacts = s.contacts := rfl
@[simp] theorem State.updCmd_clocks (s : State) (n : Nat) (f : Cmd → Cmd) : (s.updCmd n f).clocks = s.clocks := rfl
@[simp] theorem State.updCmd_counters (s : State) (n : Nat) (f : Cmd → Cmd) : (s.updCmd n f).counters = s.counters := rfl
@[simp] theorem State.updCmd_trace (s : State) (n : Nat) (f : Cmd → Cmd) : (s.updCmd n f).trace = s.trace := rfl
@[simp] theorem State.updCmd_free (s : State) (n : Nat) (f : Cmd → Cmd) : (s.updCmd n f).free = s.free := rfl
@[simp] theorem State.updCmd_timers (s : State) (n : Nat) (f : Cmd → Cmd) : (s.updCmd n f).timers = s.timers := rfl

/-! #### dropCmd -/

@[simp] theorem State.dropCmd_pending (s : State) (n : Nat) : (s.dropCmd n).pending = s.pending := rfl
@[simp] theorem State.dropCmd_tiles (s : State) (n : Nat) : (s.dropCmd n).tiles = s.tiles := rfl
@[simp] theorem State.dropCmd_mesh (s : State) (n : Nat) : (s.dropCmd n).mesh = s.mesh := rfl
@[simp] theorem State.dropCmd_mem (s : State) (n : Nat) : (s.dropCmd n).mem = s.mem := rfl
@[simp] theorem State.dropCmd_inv (s : State) (n : Nat) : (s.dropCmd n).inv = s.inv := rfl
@[simp] theorem State.dropCmd_arc (s : State) (n : Nat) : (s.dropCmd n).arc = s.arc := rfl
@[simp] theorem State.dropCmd_tx (s : State) (n : Nat) : (s.dropCmd n).tx = s.tx := rfl
@[simp] theorem State.dropCmd_ports (s : State) (n : Nat) : (s.dropCmd n).ports = s.ports := rfl
@[simp] theorem State.dropCmd_convs (s : State) (n : Nat) : (s.dropCmd n).convs = s.convs := rfl
@[simp] theorem State.dropCmd_colls (s : State) (n : Nat) : (s.dropCmd n).colls = s.colls := rfl
@[simp] theorem State.dropCmd_casts (s : State) (n : Nat) : (s.dropCmd n).casts = s.casts := rfl
@[simp] theorem State.dropCmd_rng (s : State) (n : Nat) : (s.dropCmd n).rng = s.rng := rfl
@[simp] theorem State.dropCmd_set (s : State) (n : Nat) : (s.dropCmd n).set = s.set := rfl
@[simp] theorem State.dropCmd_boot (s : State) (n : Nat) : (s.dropCmd n).boot = s.boot := rfl
@[simp] theorem State.dropCmd_fuses (s : State) (n : Nat) : (s.dropCmd n).fuses = s.fuses := rfl
@[simp] theorem State.dropCmd_arbs (s : State) (n : Nat) : (s.dropCmd n).arbs = s.arbs := rfl
@[simp] theorem State.dropCmd_transit (s : State) (n : Nat) : (s.dropCmd n).transit = s.transit := rfl
@[simp] theorem State.dropCmd_power (s : State) (n : Nat) : (s.dropCmd n).power = s.power := rfl
@[simp] theorem State.dropCmd_contacts (s : State) (n : Nat) : (s.dropCmd n).contacts = s.contacts := rfl
@[simp] theorem State.dropCmd_clocks (s : State) (n : Nat) : (s.dropCmd n).clocks = s.clocks := rfl
@[simp] theorem State.dropCmd_counters (s : State) (n : Nat) : (s.dropCmd n).counters = s.counters := rfl
@[simp] theorem State.dropCmd_trace (s : State) (n : Nat) : (s.dropCmd n).trace = s.trace := rfl
@[simp] theorem State.dropCmd_free (s : State) (n : Nat) : (s.dropCmd n).free = s.free := rfl
@[simp] theorem State.dropCmd_timers (s : State) (n : Nat) : (s.dropCmd n).timers = s.timers := rfl

/-! #### updConv -/

@[simp] theorem State.updConv_pending (s : State) (p h : Nat) (f : Conv → Conv) : (s.updConv p h f).pending = s.pending := rfl
@[simp] theorem State.updConv_tiles (s : State) (p h : Nat) (f : Conv → Conv) : (s.updConv p h f).tiles = s.tiles := rfl
@[simp] theorem State.updConv_mesh (s : State) (p h : Nat) (f : Conv → Conv) : (s.updConv p h f).mesh = s.mesh := rfl
@[simp] theorem State.updConv_mem (s : State) (p h : Nat) (f : Conv → Conv) : (s.updConv p h f).mem = s.mem := rfl
@[simp] theorem State.updConv_inv (s : State) (p h : Nat) (f : Conv → Conv) : (s.updConv p h f).inv = s.inv := rfl
@[simp] theorem State.updConv_cur (s : State) (p h : Nat) (f : Conv → Conv) : (s.updConv p h f).cur = s.cur := rfl
@[simp] theorem State.updConv_arc (s : State) (p h : Nat) (f : Conv → Conv) : (s.updConv p h f).arc = s.arc := rfl
@[simp] theorem State.updConv_tx (s : State) (p h : Nat) (f : Conv → Conv) : (s.updConv p h f).tx = s.tx := rfl
@[simp] theorem State.updConv_ports (s : State) (p h : Nat) (f : Conv → Conv) : (s.updConv p h f).ports = s.ports := rfl
@[simp] theorem State.updConv_colls (s : State) (p h : Nat) (f : Conv → Conv) : (s.updConv p h f).colls = s.colls := rfl
@[simp] theorem State.updConv_casts (s : State) (p h : Nat) (f : Conv → Conv) : (s.updConv p h f).casts = s.casts := rfl
@[simp] theorem State.updConv_rng (s : State) (p h : Nat) (f : Conv → Conv) : (s.updConv p h f).rng = s.rng := rfl
@[simp] theorem State.updConv_set (s : State) (p h : Nat) (f : Conv → Conv) : (s.updConv p h f).set = s.set := rfl
@[simp] theorem State.updConv_boot (s : State) (p h : Nat) (f : Conv → Conv) : (s.updConv p h f).boot = s.boot := rfl
@[simp] theorem State.updConv_fuses (s : State) (p h : Nat) (f : Conv → Conv) : (s.updConv p h f).fuses = s.fuses := rfl
@[simp] theorem State.updConv_arbs (s : State) (p h : Nat) (f : Conv → Conv) : (s.updConv p h f).arbs = s.arbs := rfl
@[simp] theorem State.updConv_transit (s : State) (p h : Nat) (f : Conv → Conv) : (s.updConv p h f).transit = s.transit := rfl
@[simp] theorem State.updConv_power (s : State) (p h : Nat) (f : Conv → Conv) : (s.updConv p h f).power = s.power := rfl
@[simp] theorem State.updConv_contacts (s : State) (p h : Nat) (f : Conv → Conv) : (s.updConv p h f).contacts = s.contacts := rfl
@[simp] theorem State.updConv_clocks (s : State) (p h : Nat) (f : Conv → Conv) : (s.updConv p h f).clocks = s.clocks := rfl
@[simp] theorem State.updConv_counters (s : State) (p h : Nat) (f : Conv → Conv) : (s.updConv p h f).counters = s.counters := rfl
@[simp] theorem State.updConv_trace (s : State) (p h : Nat) (f : Conv → Conv) : (s.updConv p h f).trace = s.trace := rfl
@[simp] theorem State.updConv_free (s : State) (p h : Nat) (f : Conv → Conv) : (s.updConv p h f).free = s.free := rfl
@[simp] theorem State.updConv_timers (s : State) (p h : Nat) (f : Conv → Conv) : (s.updConv p h f).timers = s.timers := rfl

/-! #### updColl -/

@[simp] theorem State.updColl_pending (s : State) (i : Nat) (f : Coll → Coll) : (s.updColl i f).pending = s.pending := rfl
@[simp] theorem State.updColl_tiles (s : State) (i : Nat) (f : Coll → Coll) : (s.updColl i f).tiles = s.tiles := rfl
@[simp] theorem State.updColl_mesh (s : State) (i : Nat) (f : Coll → Coll) : (s.updColl i f).mesh = s.mesh := rfl
@[simp] theorem State.updColl_mem (s : State) (i : Nat) (f : Coll → Coll) : (s.updColl i f).mem = s.mem := rfl
@[simp] theorem State.updColl_inv (s : State) (i : Nat) (f : Coll → Coll) : (s.updColl i f).inv = s.inv := rfl
@[simp] theorem State.updColl_cur (s : State) (i : Nat) (f : Coll → Coll) : (s.updColl i f).cur = s.cur := rfl
@[simp] theorem State.updColl_arc (s : State) (i : Nat) (f : Coll → Coll) : (s.updColl i f).arc = s.arc := rfl
@[simp] theorem State.updColl_tx (s : State) (i : Nat) (f : Coll → Coll) : (s.updColl i f).tx = s.tx := rfl
@[simp] theorem State.updColl_ports (s : State) (i : Nat) (f : Coll → Coll) : (s.updColl i f).ports = s.ports := rfl
@[simp] theorem State.updColl_convs (s : State) (i : Nat) (f : Coll → Coll) : (s.updColl i f).convs = s.convs := rfl
@[simp] theorem State.updColl_casts (s : State) (i : Nat) (f : Coll → Coll) : (s.updColl i f).casts = s.casts := rfl
@[simp] theorem State.updColl_rng (s : State) (i : Nat) (f : Coll → Coll) : (s.updColl i f).rng = s.rng := rfl
@[simp] theorem State.updColl_set (s : State) (i : Nat) (f : Coll → Coll) : (s.updColl i f).set = s.set := rfl
@[simp] theorem State.updColl_boot (s : State) (i : Nat) (f : Coll → Coll) : (s.updColl i f).boot = s.boot := rfl
@[simp] theorem State.updColl_fuses (s : State) (i : Nat) (f : Coll → Coll) : (s.updColl i f).fuses = s.fuses := rfl
@[simp] theorem State.updColl_arbs (s : State) (i : Nat) (f : Coll → Coll) : (s.updColl i f).arbs = s.arbs := rfl
@[simp] theorem State.updColl_transit (s : State) (i : Nat) (f : Coll → Coll) : (s.updColl i f).transit = s.transit := rfl
@[simp] theorem State.updColl_power (s : State) (i : Nat) (f : Coll → Coll) : (s.updColl i f).power = s.power := rfl
@[simp] theorem State.updColl_contacts (s : State) (i : Nat) (f : Coll → Coll) : (s.updColl i f).contacts = s.contacts := rfl
@[simp] theorem State.updColl_clocks (s : State) (i : Nat) (f : Coll → Coll) : (s.updColl i f).clocks = s.clocks := rfl
@[simp] theorem State.updColl_counters (s : State) (i : Nat) (f : Coll → Coll) : (s.updColl i f).counters = s.counters := rfl
@[simp] theorem State.updColl_trace (s : State) (i : Nat) (f : Coll → Coll) : (s.updColl i f).trace = s.trace := rfl
@[simp] theorem State.updColl_free (s : State) (i : Nat) (f : Coll → Coll) : (s.updColl i f).free = s.free := rfl
@[simp] theorem State.updColl_timers (s : State) (i : Nat) (f : Coll → Coll) : (s.updColl i f).timers = s.timers := rfl

/-! #### dropColl -/

@[simp] theorem State.dropColl_pending (s : State) (i : Nat) : (s.dropColl i).pending = s.pending := rfl
@[simp] theorem State.dropColl_tiles (s : State) (i : Nat) : (s.dropColl i).tiles = s.tiles := rfl
@[simp] theorem State.dropColl_mesh (s : State) (i : Nat) : (s.dropColl i).mesh = s.mesh := rfl
@[simp] theorem State.dropColl_mem (s : State) (i : Nat) : (s.dropColl i).mem = s.mem := rfl
@[simp] theorem State.dropColl_inv (s : State) (i : Nat) : (s.dropColl i).inv = s.inv := rfl
@[simp] theorem State.dropColl_cur (s : State) (i : Nat) : (s.dropColl i).cur = s.cur := rfl
@[simp] theorem State.dropColl_arc (s : State) (i : Nat) : (s.dropColl i).arc = s.arc := rfl
@[simp] theorem State.dropColl_tx (s : State) (i : Nat) : (s.dropColl i).tx = s.tx := rfl
@[simp] theorem State.dropColl_ports (s : State) (i : Nat) : (s.dropColl i).ports = s.ports := rfl
@[simp] theorem State.dropColl_convs (s : State) (i : Nat) : (s.dropColl i).convs = s.convs := rfl
@[simp] theorem State.dropColl_casts (s : State) (i : Nat) : (s.dropColl i).casts = s.casts := rfl
@[simp] theorem State.dropColl_rng (s : State) (i : Nat) : (s.dropColl i).rng = s.rng := rfl
@[simp] theorem State.dropColl_set (s : State) (i : Nat) : (s.dropColl i).set = s.set := rfl
@[simp] theorem State.dropColl_boot (s : State) (i : Nat) : (s.dropColl i).boot = s.boot := rfl
@[simp] theorem State.dropColl_fuses (s : State) (i : Nat) : (s.dropColl i).fuses = s.fuses := rfl
@[simp] theorem State.dropColl_arbs (s : State) (i : Nat) : (s.dropColl i).arbs = s.arbs := rfl
@[simp] theorem State.dropColl_transit (s : State) (i : Nat) : (s.dropColl i).transit = s.transit := rfl
@[simp] theorem State.dropColl_power (s : State) (i : Nat) : (s.dropColl i).power = s.power := rfl
@[simp] theorem State.dropColl_contacts (s : State) (i : Nat) : (s.dropColl i).contacts = s.contacts := rfl
@[simp] theorem State.dropColl_clocks (s : State) (i : Nat) : (s.dropColl i).clocks = s.clocks := rfl
@[simp] theorem State.dropColl_counters (s : State) (i : Nat) : (s.dropColl i).counters = s.counters := rfl
@[simp] theorem State.dropColl_trace (s : State) (i : Nat) : (s.dropColl i).trace = s.trace := rfl
@[simp] theorem State.dropColl_free (s : State) (i : Nat) : (s.dropColl i).free = s.free := rfl

/-! #### updLeaf -/

@[simp] theorem State.updLeaf_pending (s : State) (h : Nat) (f : Leaf → Leaf) : (s.updLeaf h f).pending = s.pending := rfl
@[simp] theorem State.updLeaf_tiles (s : State) (h : Nat) (f : Leaf → Leaf) : (s.updLeaf h f).tiles = s.tiles := rfl
@[simp] theorem State.updLeaf_mesh (s : State) (h : Nat) (f : Leaf → Leaf) : (s.updLeaf h f).mesh = s.mesh := rfl
@[simp] theorem State.updLeaf_mem (s : State) (h : Nat) (f : Leaf → Leaf) : (s.updLeaf h f).mem = s.mem := rfl
@[simp] theorem State.updLeaf_inv (s : State) (h : Nat) (f : Leaf → Leaf) : (s.updLeaf h f).inv = s.inv := rfl
@[simp] theorem State.updLeaf_cur (s : State) (h : Nat) (f : Leaf → Leaf) : (s.updLeaf h f).cur = s.cur := rfl
@[simp] theorem State.updLeaf_arc (s : State) (h : Nat) (f : Leaf → Leaf) : (s.updLeaf h f).arc = s.arc := rfl
@[simp] theorem State.updLeaf_tx (s : State) (h : Nat) (f : Leaf → Leaf) : (s.updLeaf h f).tx = s.tx := rfl
@[simp] theorem State.updLeaf_ports (s : State) (h : Nat) (f : Leaf → Leaf) : (s.updLeaf h f).ports = s.ports := rfl
@[simp] theorem State.updLeaf_convs (s : State) (h : Nat) (f : Leaf → Leaf) : (s.updLeaf h f).convs = s.convs := rfl
@[simp] theorem State.updLeaf_colls (s : State) (h : Nat) (f : Leaf → Leaf) : (s.updLeaf h f).colls = s.colls := rfl
@[simp] theorem State.updLeaf_rng (s : State) (h : Nat) (f : Leaf → Leaf) : (s.updLeaf h f).rng = s.rng := rfl
@[simp] theorem State.updLeaf_set (s : State) (h : Nat) (f : Leaf → Leaf) : (s.updLeaf h f).set = s.set := rfl
@[simp] theorem State.updLeaf_boot (s : State) (h : Nat) (f : Leaf → Leaf) : (s.updLeaf h f).boot = s.boot := rfl
@[simp] theorem State.updLeaf_fuses (s : State) (h : Nat) (f : Leaf → Leaf) : (s.updLeaf h f).fuses = s.fuses := rfl
@[simp] theorem State.updLeaf_arbs (s : State) (h : Nat) (f : Leaf → Leaf) : (s.updLeaf h f).arbs = s.arbs := rfl
@[simp] theorem State.updLeaf_transit (s : State) (h : Nat) (f : Leaf → Leaf) : (s.updLeaf h f).transit = s.transit := rfl
@[simp] theorem State.updLeaf_power (s : State) (h : Nat) (f : Leaf → Leaf) : (s.updLeaf h f).power = s.power := rfl
@[simp] theorem State.updLeaf_contacts (s : State) (h : Nat) (f : Leaf → Leaf) : (s.updLeaf h f).contacts = s.contacts := rfl
@[simp] theorem State.updLeaf_clocks (s : State) (h : Nat) (f : Leaf → Leaf) : (s.updLeaf h f).clocks = s.clocks := rfl
@[simp] theorem State.updLeaf_counters (s : State) (h : Nat) (f : Leaf → Leaf) : (s.updLeaf h f).counters = s.counters := rfl
@[simp] theorem State.updLeaf_trace (s : State) (h : Nat) (f : Leaf → Leaf) : (s.updLeaf h f).trace = s.trace := rfl
@[simp] theorem State.updLeaf_free (s : State) (h : Nat) (f : Leaf → Leaf) : (s.updLeaf h f).free = s.free := rfl
@[simp] theorem State.updLeaf_timers (s : State) (h : Nat) (f : Leaf → Leaf) : (s.updLeaf h f).timers = s.timers := rfl

/-! #### updSub -/

@[simp] theorem State.updSub_pending (s : State) (q : Nat) (f : Sub → Sub) : (s.updSub q f).pending = s.pending := rfl
@[simp] theorem State.updSub_tiles (s : State) (q : Nat) (f : Sub → Sub) : (s.updSub q f).tiles = s.tiles := rfl
@[simp] theorem State.updSub_mesh (s : State) (q : Nat) (f : Sub → Sub) : (s.updSub q f).mesh = s.mesh := rfl
@[simp] theorem State.updSub_mem (s : State) (q : Nat) (f : Sub → Sub) : (s.updSub q f).mem = s.mem := rfl
@[simp] theorem State.updSub_inv (s : State) (q : Nat) (f : Sub → Sub) : (s.updSub q f).inv = s.inv := rfl
@[simp] theorem State.updSub_cur (s : State) (q : Nat) (f : Sub → Sub) : (s.updSub q f).cur = s.cur := rfl
@[simp] theorem State.updSub_arc (s : State) (q : Nat) (f : Sub → Sub) : (s.updSub q f).arc = s.arc := rfl
@[simp] theorem State.updSub_tx (s : State) (q : Nat) (f : Sub → Sub) : (s.updSub q f).tx = s.tx := rfl
@[simp] theorem State.updSub_ports (s : State) (q : Nat) (f : Sub → Sub) : (s.updSub q f).ports = s.ports := rfl
@[simp] theorem State.updSub_convs (s : State) (q : Nat) (f : Sub → Sub) : (s.updSub q f).convs = s.convs := rfl
@[simp] theorem State.updSub_colls (s : State) (q : Nat) (f : Sub → Sub) : (s.updSub q f).colls = s.colls := rfl
@[simp] theorem State.updSub_rng (s : State) (q : Nat) (f : Sub → Sub) : (s.updSub q f).rng = s.rng := rfl
@[simp] theorem State.updSub_set (s : State) (q : Nat) (f : Sub → Sub) : (s.updSub q f).set = s.set := rfl
@[simp] theorem State.updSub_boot (s : State) (q : Nat) (f : Sub → Sub) : (s.updSub q f).boot = s.boot := rfl
@[simp] theorem State.updSub_fuses (s : State) (q : Nat) (f : Sub → Sub) : (s.updSub q f).fuses = s.fuses := rfl
@[simp] theorem State.updSub_arbs (s : State) (q : Nat) (f : Sub → Sub) : (s.updSub q f).arbs = s.arbs := rfl
@[simp] theorem State.updSub_transit (s : State) (q : Nat) (f : Sub → Sub) : (s.updSub q f).transit = s.transit := rfl
@[simp] theorem State.updSub_power (s : State) (q : Nat) (f : Sub → Sub) : (s.updSub q f).power = s.power := rfl
@[simp] theorem State.updSub_contacts (s : State) (q : Nat) (f : Sub → Sub) : (s.updSub q f).contacts = s.contacts := rfl
@[simp] theorem State.updSub_clocks (s : State) (q : Nat) (f : Sub → Sub) : (s.updSub q f).clocks = s.clocks := rfl
@[simp] theorem State.updSub_counters (s : State) (q : Nat) (f : Sub → Sub) : (s.updSub q f).counters = s.counters := rfl
@[simp] theorem State.updSub_trace (s : State) (q : Nat) (f : Sub → Sub) : (s.updSub q f).trace = s.trace := rfl
@[simp] theorem State.updSub_free (s : State) (q : Nat) (f : Sub → Sub) : (s.updSub q f).free = s.free := rfl
@[simp] theorem State.updSub_timers (s : State) (q : Nat) (f : Sub → Sub) : (s.updSub q f).timers = s.timers := rfl

/-! #### dropSub -/

@[simp] theorem State.dropSub_pending (s : State) (q : Nat) : (s.dropSub q).pending = s.pending := rfl
@[simp] theorem State.dropSub_tiles (s : State) (q : Nat) : (s.dropSub q).tiles = s.tiles := rfl
@[simp] theorem State.dropSub_mesh (s : State) (q : Nat) : (s.dropSub q).mesh = s.mesh := rfl
@[simp] theorem State.dropSub_mem (s : State) (q : Nat) : (s.dropSub q).mem = s.mem := rfl
@[simp] theorem State.dropSub_inv (s : State) (q : Nat) : (s.dropSub q).inv = s.inv := rfl
@[simp] theorem State.dropSub_cur (s : State) (q : Nat) : (s.dropSub q).cur = s.cur := rfl
@[simp] theorem State.dropSub_arc (s : State) (q : Nat) : (s.dropSub q).arc = s.arc := rfl
@[simp] theorem State.dropSub_tx (s : State) (q : Nat) : (s.dropSub q).tx = s.tx := rfl
@[simp] theorem State.dropSub_ports (s : State) (q : Nat) : (s.dropSub q).ports = s.ports := rfl
@[simp] theorem State.dropSub_convs (s : State) (q : Nat) : (s.dropSub q).convs = s.convs := rfl
@[simp] theorem State.dropSub_colls (s : State) (q : Nat) : (s.dropSub q).colls = s.colls := rfl
@[simp] theorem State.dropSub_rng (s : State) (q : Nat) : (s.dropSub q).rng = s.rng := rfl
@[simp] theorem State.dropSub_set (s : State) (q : Nat) : (s.dropSub q).set = s.set := rfl
@[simp] theorem State.dropSub_boot (s : State) (q : Nat) : (s.dropSub q).boot = s.boot := rfl
@[simp] theorem State.dropSub_fuses (s : State) (q : Nat) : (s.dropSub q).fuses = s.fuses := rfl
@[simp] theorem State.dropSub_arbs (s : State) (q : Nat) : (s.dropSub q).arbs = s.arbs := rfl
@[simp] theorem State.dropSub_transit (s : State) (q : Nat) : (s.dropSub q).transit = s.transit := rfl
@[simp] theorem State.dropSub_power (s : State) (q : Nat) : (s.dropSub q).power = s.power := rfl
@[simp] theorem State.dropSub_contacts (s : State) (q : Nat) : (s.dropSub q).contacts = s.contacts := rfl
@[simp] theorem State.dropSub_clocks (s : State) (q : Nat) : (s.dropSub q).clocks = s.clocks := rfl
@[simp] theorem State.dropSub_counters (s : State) (q : Nat) : (s.dropSub q).counters = s.counters := rfl
@[simp] theorem State.dropSub_trace (s : State) (q : Nat) : (s.dropSub q).trace = s.trace := rfl
@[simp] theorem State.dropSub_free (s : State) (q : Nat) : (s.dropSub q).free = s.free := rfl
@[simp] theorem State.dropSub_timers (s : State) (q : Nat) : (s.dropSub q).timers = s.timers := rfl

/-! #### updPower -/

@[simp] theorem State.updPower_pending (s : State) (f : Power → Power) : (s.updPower f).pending = s.pending := rfl
@[simp] theorem State.updPower_tiles (s : State) (f : Power → Power) : (s.updPower f).tiles = s.tiles := rfl
@[simp] theorem State.updPower_mesh (s : State) (f : Power → Power) : (s.updPower f).mesh = s.mesh := rfl
@[simp] theorem State.updPower_mem (s : State) (f : Power → Power) : (s.updPower f).mem = s.mem := rfl
@[simp] theorem State.updPower_inv (s : State) (f : Power → Power) : (s.updPower f).inv = s.inv := rfl
@[simp] theorem State.updPower_cur (s : State) (f : Power → Power) : (s.updPower f).cur = s.cur := rfl
@[simp] theorem State.updPower_arc (s : State) (f : Power → Power) : (s.updPower f).arc = s.arc := rfl
@[simp] theorem State.updPower_tx (s : State) (f : Power → Power) : (s.updPower f).tx = s.tx := rfl
@[simp] theorem State.updPower_ports (s : State) (f : Power → Power) : (s.updPower f).ports = s.ports := rfl
@[simp] theorem State.updPower_convs (s : State) (f : Power → Power) : (s.updPower f).convs = s.convs := rfl
@[simp] theorem State.updPower_colls (s : State) (f : Power → Power) : (s.updPower f).colls = s.colls := rfl
@[simp] theorem State.updPower_casts (s : State) (f : Power → Power) : (s.updPower f).casts = s.casts := rfl
@[simp] theorem State.updPower_rng (s : State) (f : Power → Power) : (s.updPower f).rng = s.rng := rfl
@[simp] theorem State.updPower_set (s : State) (f : Power → Power) : (s.updPower f).set = s.set := rfl
@[simp] theorem State.updPower_boot (s : State) (f : Power → Power) : (s.updPower f).boot = s.boot := rfl
@[simp] theorem State.updPower_fuses (s : State) (f : Power → Power) : (s.updPower f).fuses = s.fuses := rfl
@[simp] theorem State.updPower_arbs (s : State) (f : Power → Power) : (s.updPower f).arbs = s.arbs := rfl
@[simp] theorem State.updPower_transit (s : State) (f : Power → Power) : (s.updPower f).transit = s.transit := rfl
@[simp] theorem State.updPower_contacts (s : State) (f : Power → Power) : (s.updPower f).contacts = s.contacts := rfl
@[simp] theorem State.updPower_clocks (s : State) (f : Power → Power) : (s.updPower f).clocks = s.clocks := rfl
@[simp] theorem State.updPower_counters (s : State) (f : Power → Power) : (s.updPower f).counters = s.counters := rfl
@[simp] theorem State.updPower_trace (s : State) (f : Power → Power) : (s.updPower f).trace = s.trace := rfl
@[simp] theorem State.updPower_free (s : State) (f : Power → Power) : (s.updPower f).free = s.free := rfl
@[simp] theorem State.updPower_timers (s : State) (f : Power → Power) : (s.updPower f).timers = s.timers := rfl

/-! #### updAcct -/

@[simp] theorem State.updAcct_pending (s : State) (p : Nat) (k : AcctKey) (f : Account → Account) : (s.updAcct p k f).pending = s.pending := rfl
@[simp] theorem State.updAcct_mesh (s : State) (p : Nat) (k : AcctKey) (f : Account → Account) : (s.updAcct p k f).mesh = s.mesh := rfl
@[simp] theorem State.updAcct_mem (s : State) (p : Nat) (k : AcctKey) (f : Account → Account) : (s.updAcct p k f).mem = s.mem := rfl
@[simp] theorem State.updAcct_inv (s : State) (p : Nat) (k : AcctKey) (f : Account → Account) : (s.updAcct p k f).inv = s.inv := rfl
@[simp] theorem State.updAcct_cur (s : State) (p : Nat) (k : AcctKey) (f : Account → Account) : (s.updAcct p k f).cur = s.cur := rfl
@[simp] theorem State.updAcct_arc (s : State) (p : Nat) (k : AcctKey) (f : Account → Account) : (s.updAcct p k f).arc = s.arc := rfl
@[simp] theorem State.updAcct_tx (s : State) (p : Nat) (k : AcctKey) (f : Account → Account) : (s.updAcct p k f).tx = s.tx := rfl
@[simp] theorem State.updAcct_ports (s : State) (p : Nat) (k : AcctKey) (f : Account → Account) : (s.updAcct p k f).ports = s.ports := rfl
@[simp] theorem State.updAcct_convs (s : State) (p : Nat) (k : AcctKey) (f : Account → Account) : (s.updAcct p k f).convs = s.convs := rfl
@[simp] theorem State.updAcct_colls (s : State) (p : Nat) (k : AcctKey) (f : Account → Account) : (s.updAcct p k f).colls = s.colls := rfl
@[simp] theorem State.updAcct_casts (s : State) (p : Nat) (k : AcctKey) (f : Account → Account) : (s.updAcct p k f).casts = s.casts := rfl
@[simp] theorem State.updAcct_rng (s : State) (p : Nat) (k : AcctKey) (f : Account → Account) : (s.updAcct p k f).rng = s.rng := rfl
@[simp] theorem State.updAcct_set (s : State) (p : Nat) (k : AcctKey) (f : Account → Account) : (s.updAcct p k f).set = s.set := rfl
@[simp] theorem State.updAcct_boot (s : State) (p : Nat) (k : AcctKey) (f : Account → Account) : (s.updAcct p k f).boot = s.boot := rfl
@[simp] theorem State.updAcct_fuses (s : State) (p : Nat) (k : AcctKey) (f : Account → Account) : (s.updAcct p k f).fuses = s.fuses := rfl
@[simp] theorem State.updAcct_arbs (s : State) (p : Nat) (k : AcctKey) (f : Account → Account) : (s.updAcct p k f).arbs = s.arbs := rfl
@[simp] theorem State.updAcct_transit (s : State) (p : Nat) (k : AcctKey) (f : Account → Account) : (s.updAcct p k f).transit = s.transit := rfl
@[simp] theorem State.updAcct_power (s : State) (p : Nat) (k : AcctKey) (f : Account → Account) : (s.updAcct p k f).power = s.power := rfl
@[simp] theorem State.updAcct_contacts (s : State) (p : Nat) (k : AcctKey) (f : Account → Account) : (s.updAcct p k f).contacts = s.contacts := rfl
@[simp] theorem State.updAcct_clocks (s : State) (p : Nat) (k : AcctKey) (f : Account → Account) : (s.updAcct p k f).clocks = s.clocks := rfl
@[simp] theorem State.updAcct_counters (s : State) (p : Nat) (k : AcctKey) (f : Account → Account) : (s.updAcct p k f).counters = s.counters := rfl
@[simp] theorem State.updAcct_trace (s : State) (p : Nat) (k : AcctKey) (f : Account → Account) : (s.updAcct p k f).trace = s.trace := rfl
@[simp] theorem State.updAcct_free (s : State) (p : Nat) (k : AcctKey) (f : Account → Account) : (s.updAcct p k f).free = s.free := rfl
@[simp] theorem State.updAcct_timers (s : State) (p : Nat) (k : AcctKey) (f : Account → Account) : (s.updAcct p k f).timers = s.timers := rfl

/-! #### setStaged -/

@[simp] theorem State.setStaged_pending (s : State) (i n : Nat) : (s.setStaged i n).pending = s.pending := rfl
@[simp] theorem State.setStaged_tiles (s : State) (i n : Nat) : (s.setStaged i n).tiles = s.tiles := rfl
@[simp] theorem State.setStaged_mesh (s : State) (i n : Nat) : (s.setStaged i n).mesh = s.mesh := rfl
@[simp] theorem State.setStaged_mem (s : State) (i n : Nat) : (s.setStaged i n).mem = s.mem := rfl
@[simp] theorem State.setStaged_inv (s : State) (i n : Nat) : (s.setStaged i n).inv = s.inv := rfl
@[simp] theorem State.setStaged_cur (s : State) (i n : Nat) : (s.setStaged i n).cur = s.cur := rfl
@[simp] theorem State.setStaged_arc (s : State) (i n : Nat) : (s.setStaged i n).arc = s.arc := rfl
@[simp] theorem State.setStaged_tx (s : State) (i n : Nat) : (s.setStaged i n).tx = s.tx := rfl
@[simp] theorem State.setStaged_ports (s : State) (i n : Nat) : (s.setStaged i n).ports = s.ports := rfl
@[simp] theorem State.setStaged_convs (s : State) (i n : Nat) : (s.setStaged i n).convs = s.convs := rfl
@[simp] theorem State.setStaged_colls (s : State) (i n : Nat) : (s.setStaged i n).colls = s.colls := rfl
@[simp] theorem State.setStaged_casts (s : State) (i n : Nat) : (s.setStaged i n).casts = s.casts := rfl
@[simp] theorem State.setStaged_rng (s : State) (i n : Nat) : (s.setStaged i n).rng = s.rng := rfl
@[simp] theorem State.setStaged_set (s : State) (i n : Nat) : (s.setStaged i n).set = s.set := rfl
@[simp] theorem State.setStaged_fuses (s : State) (i n : Nat) : (s.setStaged i n).fuses = s.fuses := rfl
@[simp] theorem State.setStaged_arbs (s : State) (i n : Nat) : (s.setStaged i n).arbs = s.arbs := rfl
@[simp] theorem State.setStaged_transit (s : State) (i n : Nat) : (s.setStaged i n).transit = s.transit := rfl
@[simp] theorem State.setStaged_power (s : State) (i n : Nat) : (s.setStaged i n).power = s.power := rfl
@[simp] theorem State.setStaged_contacts (s : State) (i n : Nat) : (s.setStaged i n).contacts = s.contacts := rfl
@[simp] theorem State.setStaged_clocks (s : State) (i n : Nat) : (s.setStaged i n).clocks = s.clocks := rfl
@[simp] theorem State.setStaged_counters (s : State) (i n : Nat) : (s.setStaged i n).counters = s.counters := rfl
@[simp] theorem State.setStaged_trace (s : State) (i n : Nat) : (s.setStaged i n).trace = s.trace := rfl
@[simp] theorem State.setStaged_free (s : State) (i n : Nat) : (s.setStaged i n).free = s.free := rfl
@[simp] theorem State.setStaged_timers (s : State) (i n : Nat) : (s.setStaged i n).timers = s.timers := rfl

/-! #### setVerified -/

@[simp] theorem State.setVerified_pending (s : State) (i : Nat) (v : Option Nat) : (s.setVerified i v).pending = s.pending := rfl
@[simp] theorem State.setVerified_tiles (s : State) (i : Nat) (v : Option Nat) : (s.setVerified i v).tiles = s.tiles := rfl
@[simp] theorem State.setVerified_mesh (s : State) (i : Nat) (v : Option Nat) : (s.setVerified i v).mesh = s.mesh := rfl
@[simp] theorem State.setVerified_mem (s : State) (i : Nat) (v : Option Nat) : (s.setVerified i v).mem = s.mem := rfl
@[simp] theorem State.setVerified_inv (s : State) (i : Nat) (v : Option Nat) : (s.setVerified i v).inv = s.inv := rfl
@[simp] theorem State.setVerified_cur (s : State) (i : Nat) (v : Option Nat) : (s.setVerified i v).cur = s.cur := rfl
@[simp] theorem State.setVerified_arc (s : State) (i : Nat) (v : Option Nat) : (s.setVerified i v).arc = s.arc := rfl
@[simp] theorem State.setVerified_tx (s : State) (i : Nat) (v : Option Nat) : (s.setVerified i v).tx = s.tx := rfl
@[simp] theorem State.setVerified_ports (s : State) (i : Nat) (v : Option Nat) : (s.setVerified i v).ports = s.ports := rfl
@[simp] theorem State.setVerified_convs (s : State) (i : Nat) (v : Option Nat) : (s.setVerified i v).convs = s.convs := rfl
@[simp] theorem State.setVerified_colls (s : State) (i : Nat) (v : Option Nat) : (s.setVerified i v).colls = s.colls := rfl
@[simp] theorem State.setVerified_casts (s : State) (i : Nat) (v : Option Nat) : (s.setVerified i v).casts = s.casts := rfl
@[simp] theorem State.setVerified_rng (s : State) (i : Nat) (v : Option Nat) : (s.setVerified i v).rng = s.rng := rfl
@[simp] theorem State.setVerified_set (s : State) (i : Nat) (v : Option Nat) : (s.setVerified i v).set = s.set := rfl
@[simp] theorem State.setVerified_fuses (s : State) (i : Nat) (v : Option Nat) : (s.setVerified i v).fuses = s.fuses := rfl
@[simp] theorem State.setVerified_arbs (s : State) (i : Nat) (v : Option Nat) : (s.setVerified i v).arbs = s.arbs := rfl
@[simp] theorem State.setVerified_transit (s : State) (i : Nat) (v : Option Nat) : (s.setVerified i v).transit = s.transit := rfl
@[simp] theorem State.setVerified_power (s : State) (i : Nat) (v : Option Nat) : (s.setVerified i v).power = s.power := rfl
@[simp] theorem State.setVerified_contacts (s : State) (i : Nat) (v : Option Nat) : (s.setVerified i v).contacts = s.contacts := rfl
@[simp] theorem State.setVerified_clocks (s : State) (i : Nat) (v : Option Nat) : (s.setVerified i v).clocks = s.clocks := rfl
@[simp] theorem State.setVerified_counters (s : State) (i : Nat) (v : Option Nat) : (s.setVerified i v).counters = s.counters := rfl
@[simp] theorem State.setVerified_trace (s : State) (i : Nat) (v : Option Nat) : (s.setVerified i v).trace = s.trace := rfl
@[simp] theorem State.setVerified_free (s : State) (i : Nat) (v : Option Nat) : (s.setVerified i v).free = s.free := rfl
@[simp] theorem State.setVerified_timers (s : State) (i : Nat) (v : Option Nat) : (s.setVerified i v).timers = s.timers := rfl

/-! #### updBank -/

@[simp] theorem State.updBank_pending (s : State) (p b : Nat) (f : Bank → Bank) : (s.updBank p b f).pending = s.pending := rfl
@[simp] theorem State.updBank_mesh (s : State) (p b : Nat) (f : Bank → Bank) : (s.updBank p b f).mesh = s.mesh := rfl
@[simp] theorem State.updBank_mem (s : State) (p b : Nat) (f : Bank → Bank) : (s.updBank p b f).mem = s.mem := rfl
@[simp] theorem State.updBank_inv (s : State) (p b : Nat) (f : Bank → Bank) : (s.updBank p b f).inv = s.inv := rfl
@[simp] theorem State.updBank_cur (s : State) (p b : Nat) (f : Bank → Bank) : (s.updBank p b f).cur = s.cur := rfl
@[simp] theorem State.updBank_arc (s : State) (p b : Nat) (f : Bank → Bank) : (s.updBank p b f).arc = s.arc := rfl
@[simp] theorem State.updBank_tx (s : State) (p b : Nat) (f : Bank → Bank) : (s.updBank p b f).tx = s.tx := rfl
@[simp] theorem State.updBank_ports (s : State) (p b : Nat) (f : Bank → Bank) : (s.updBank p b f).ports = s.ports := rfl
@[simp] theorem State.updBank_convs (s : State) (p b : Nat) (f : Bank → Bank) : (s.updBank p b f).convs = s.convs := rfl
@[simp] theorem State.updBank_colls (s : State) (p b : Nat) (f : Bank → Bank) : (s.updBank p b f).colls = s.colls := rfl
@[simp] theorem State.updBank_casts (s : State) (p b : Nat) (f : Bank → Bank) : (s.updBank p b f).casts = s.casts := rfl
@[simp] theorem State.updBank_rng (s : State) (p b : Nat) (f : Bank → Bank) : (s.updBank p b f).rng = s.rng := rfl
@[simp] theorem State.updBank_set (s : State) (p b : Nat) (f : Bank → Bank) : (s.updBank p b f).set = s.set := rfl
@[simp] theorem State.updBank_boot (s : State) (p b : Nat) (f : Bank → Bank) : (s.updBank p b f).boot = s.boot := rfl
@[simp] theorem State.updBank_fuses (s : State) (p b : Nat) (f : Bank → Bank) : (s.updBank p b f).fuses = s.fuses := rfl
@[simp] theorem State.updBank_arbs (s : State) (p b : Nat) (f : Bank → Bank) : (s.updBank p b f).arbs = s.arbs := rfl
@[simp] theorem State.updBank_transit (s : State) (p b : Nat) (f : Bank → Bank) : (s.updBank p b f).transit = s.transit := rfl
@[simp] theorem State.updBank_power (s : State) (p b : Nat) (f : Bank → Bank) : (s.updBank p b f).power = s.power := rfl
@[simp] theorem State.updBank_contacts (s : State) (p b : Nat) (f : Bank → Bank) : (s.updBank p b f).contacts = s.contacts := rfl
@[simp] theorem State.updBank_clocks (s : State) (p b : Nat) (f : Bank → Bank) : (s.updBank p b f).clocks = s.clocks := rfl
@[simp] theorem State.updBank_counters (s : State) (p b : Nat) (f : Bank → Bank) : (s.updBank p b f).counters = s.counters := rfl
@[simp] theorem State.updBank_trace (s : State) (p b : Nat) (f : Bank → Bank) : (s.updBank p b f).trace = s.trace := rfl
@[simp] theorem State.updBank_free (s : State) (p b : Nat) (f : Bank → Bank) : (s.updBank p b f).free = s.free := rfl
@[simp] theorem State.updBank_timers (s : State) (p b : Nat) (f : Bank → Bank) : (s.updBank p b f).timers = s.timers := rfl

/-! #### updQueue -/

@[simp] theorem State.updQueue_pending (s : State) (p q : Nat) (f : Queue → Queue) : (s.updQueue p q f).pending = s.pending := rfl
@[simp] theorem State.updQueue_mesh (s : State) (p q : Nat) (f : Queue → Queue) : (s.updQueue p q f).mesh = s.mesh := rfl
@[simp] theorem State.updQueue_mem (s : State) (p q : Nat) (f : Queue → Queue) : (s.updQueue p q f).mem = s.mem := rfl
@[simp] theorem State.updQueue_inv (s : State) (p q : Nat) (f : Queue → Queue) : (s.updQueue p q f).inv = s.inv := rfl
@[simp] theorem State.updQueue_cur (s : State) (p q : Nat) (f : Queue → Queue) : (s.updQueue p q f).cur = s.cur := rfl
@[simp] theorem State.updQueue_arc (s : State) (p q : Nat) (f : Queue → Queue) : (s.updQueue p q f).arc = s.arc := rfl
@[simp] theorem State.updQueue_tx (s : State) (p q : Nat) (f : Queue → Queue) : (s.updQueue p q f).tx = s.tx := rfl
@[simp] theorem State.updQueue_ports (s : State) (p q : Nat) (f : Queue → Queue) : (s.updQueue p q f).ports = s.ports := rfl
@[simp] theorem State.updQueue_convs (s : State) (p q : Nat) (f : Queue → Queue) : (s.updQueue p q f).convs = s.convs := rfl
@[simp] theorem State.updQueue_colls (s : State) (p q : Nat) (f : Queue → Queue) : (s.updQueue p q f).colls = s.colls := rfl
@[simp] theorem State.updQueue_casts (s : State) (p q : Nat) (f : Queue → Queue) : (s.updQueue p q f).casts = s.casts := rfl
@[simp] theorem State.updQueue_rng (s : State) (p q : Nat) (f : Queue → Queue) : (s.updQueue p q f).rng = s.rng := rfl
@[simp] theorem State.updQueue_set (s : State) (p q : Nat) (f : Queue → Queue) : (s.updQueue p q f).set = s.set := rfl
@[simp] theorem State.updQueue_boot (s : State) (p q : Nat) (f : Queue → Queue) : (s.updQueue p q f).boot = s.boot := rfl
@[simp] theorem State.updQueue_fuses (s : State) (p q : Nat) (f : Queue → Queue) : (s.updQueue p q f).fuses = s.fuses := rfl
@[simp] theorem State.updQueue_arbs (s : State) (p q : Nat) (f : Queue → Queue) : (s.updQueue p q f).arbs = s.arbs := rfl
@[simp] theorem State.updQueue_transit (s : State) (p q : Nat) (f : Queue → Queue) : (s.updQueue p q f).transit = s.transit := rfl
@[simp] theorem State.updQueue_power (s : State) (p q : Nat) (f : Queue → Queue) : (s.updQueue p q f).power = s.power := rfl
@[simp] theorem State.updQueue_contacts (s : State) (p q : Nat) (f : Queue → Queue) : (s.updQueue p q f).contacts = s.contacts := rfl
@[simp] theorem State.updQueue_clocks (s : State) (p q : Nat) (f : Queue → Queue) : (s.updQueue p q f).clocks = s.clocks := rfl
@[simp] theorem State.updQueue_counters (s : State) (p q : Nat) (f : Queue → Queue) : (s.updQueue p q f).counters = s.counters := rfl
@[simp] theorem State.updQueue_trace (s : State) (p q : Nat) (f : Queue → Queue) : (s.updQueue p q f).trace = s.trace := rfl
@[simp] theorem State.updQueue_free (s : State) (p q : Nat) (f : Queue → Queue) : (s.updQueue p q f).free = s.free := rfl
@[simp] theorem State.updQueue_timers (s : State) (p q : Nat) (f : Queue → Queue) : (s.updQueue p q f).timers = s.timers := rfl

/-! #### setWin -/

@[simp] theorem State.setWin_pending (s : State) (p n : Nat) (w : Window) : (s.setWin p n w).pending = s.pending := rfl
@[simp] theorem State.setWin_mesh (s : State) (p n : Nat) (w : Window) : (s.setWin p n w).mesh = s.mesh := rfl
@[simp] theorem State.setWin_mem (s : State) (p n : Nat) (w : Window) : (s.setWin p n w).mem = s.mem := rfl
@[simp] theorem State.setWin_inv (s : State) (p n : Nat) (w : Window) : (s.setWin p n w).inv = s.inv := rfl
@[simp] theorem State.setWin_cur (s : State) (p n : Nat) (w : Window) : (s.setWin p n w).cur = s.cur := rfl
@[simp] theorem State.setWin_arc (s : State) (p n : Nat) (w : Window) : (s.setWin p n w).arc = s.arc := rfl
@[simp] theorem State.setWin_tx (s : State) (p n : Nat) (w : Window) : (s.setWin p n w).tx = s.tx := rfl
@[simp] theorem State.setWin_ports (s : State) (p n : Nat) (w : Window) : (s.setWin p n w).ports = s.ports := rfl
@[simp] theorem State.setWin_convs (s : State) (p n : Nat) (w : Window) : (s.setWin p n w).convs = s.convs := rfl
@[simp] theorem State.setWin_colls (s : State) (p n : Nat) (w : Window) : (s.setWin p n w).colls = s.colls := rfl
@[simp] theorem State.setWin_casts (s : State) (p n : Nat) (w : Window) : (s.setWin p n w).casts = s.casts := rfl
@[simp] theorem State.setWin_rng (s : State) (p n : Nat) (w : Window) : (s.setWin p n w).rng = s.rng := rfl
@[simp] theorem State.setWin_set (s : State) (p n : Nat) (w : Window) : (s.setWin p n w).set = s.set := rfl
@[simp] theorem State.setWin_boot (s : State) (p n : Nat) (w : Window) : (s.setWin p n w).boot = s.boot := rfl
@[simp] theorem State.setWin_fuses (s : State) (p n : Nat) (w : Window) : (s.setWin p n w).fuses = s.fuses := rfl
@[simp] theorem State.setWin_arbs (s : State) (p n : Nat) (w : Window) : (s.setWin p n w).arbs = s.arbs := rfl
@[simp] theorem State.setWin_transit (s : State) (p n : Nat) (w : Window) : (s.setWin p n w).transit = s.transit := rfl
@[simp] theorem State.setWin_power (s : State) (p n : Nat) (w : Window) : (s.setWin p n w).power = s.power := rfl
@[simp] theorem State.setWin_contacts (s : State) (p n : Nat) (w : Window) : (s.setWin p n w).contacts = s.contacts := rfl
@[simp] theorem State.setWin_clocks (s : State) (p n : Nat) (w : Window) : (s.setWin p n w).clocks = s.clocks := rfl
@[simp] theorem State.setWin_counters (s : State) (p n : Nat) (w : Window) : (s.setWin p n w).counters = s.counters := rfl
@[simp] theorem State.setWin_trace (s : State) (p n : Nat) (w : Window) : (s.setWin p n w).trace = s.trace := rfl
@[simp] theorem State.setWin_free (s : State) (p n : Nat) (w : Window) : (s.setWin p n w).free = s.free := rfl
@[simp] theorem State.setWin_timers (s : State) (p n : Nat) (w : Window) : (s.setWin p n w).timers = s.timers := rfl

/-! #### setVreg -/

@[simp] theorem State.setVreg_pending (s : State) (p v x : Nat) : (s.setVreg p v x).pending = s.pending := rfl
@[simp] theorem State.setVreg_mesh (s : State) (p v x : Nat) : (s.setVreg p v x).mesh = s.mesh := rfl
@[simp] theorem State.setVreg_mem (s : State) (p v x : Nat) : (s.setVreg p v x).mem = s.mem := rfl
@[simp] theorem State.setVreg_inv (s : State) (p v x : Nat) : (s.setVreg p v x).inv = s.inv := rfl
@[simp] theorem State.setVreg_cur (s : State) (p v x : Nat) : (s.setVreg p v x).cur = s.cur := rfl
@[simp] theorem State.setVreg_arc (s : State) (p v x : Nat) : (s.setVreg p v x).arc = s.arc := rfl
@[simp] theorem State.setVreg_tx (s : State) (p v x : Nat) : (s.setVreg p v x).tx = s.tx := rfl
@[simp] theorem State.setVreg_ports (s : State) (p v x : Nat) : (s.setVreg p v x).ports = s.ports := rfl
@[simp] theorem State.setVreg_convs (s : State) (p v x : Nat) : (s.setVreg p v x).convs = s.convs := rfl
@[simp] theorem State.setVreg_colls (s : State) (p v x : Nat) : (s.setVreg p v x).colls = s.colls := rfl
@[simp] theorem State.setVreg_casts (s : State) (p v x : Nat) : (s.setVreg p v x).casts = s.casts := rfl
@[simp] theorem State.setVreg_rng (s : State) (p v x : Nat) : (s.setVreg p v x).rng = s.rng := rfl
@[simp] theorem State.setVreg_set (s : State) (p v x : Nat) : (s.setVreg p v x).set = s.set := rfl
@[simp] theorem State.setVreg_boot (s : State) (p v x : Nat) : (s.setVreg p v x).boot = s.boot := rfl
@[simp] theorem State.setVreg_fuses (s : State) (p v x : Nat) : (s.setVreg p v x).fuses = s.fuses := rfl
@[simp] theorem State.setVreg_arbs (s : State) (p v x : Nat) : (s.setVreg p v x).arbs = s.arbs := rfl
@[simp] theorem State.setVreg_transit (s : State) (p v x : Nat) : (s.setVreg p v x).transit = s.transit := rfl
@[simp] theorem State.setVreg_power (s : State) (p v x : Nat) : (s.setVreg p v x).power = s.power := rfl
@[simp] theorem State.setVreg_contacts (s : State) (p v x : Nat) : (s.setVreg p v x).contacts = s.contacts := rfl
@[simp] theorem State.setVreg_clocks (s : State) (p v x : Nat) : (s.setVreg p v x).clocks = s.clocks := rfl
@[simp] theorem State.setVreg_counters (s : State) (p v x : Nat) : (s.setVreg p v x).counters = s.counters := rfl
@[simp] theorem State.setVreg_trace (s : State) (p v x : Nat) : (s.setVreg p v x).trace = s.trace := rfl
@[simp] theorem State.setVreg_free (s : State) (p v x : Nat) : (s.setVreg p v x).free = s.free := rfl
@[simp] theorem State.setVreg_timers (s : State) (p v x : Nat) : (s.setVreg p v x).timers = s.timers := rfl

/-! #### setX -/

@[simp] theorem State.setX_pending (s : State) (p l i v : Nat) : (s.setX p l i v).pending = s.pending := rfl
@[simp] theorem State.setX_mesh (s : State) (p l i v : Nat) : (s.setX p l i v).mesh = s.mesh := rfl
@[simp] theorem State.setX_mem (s : State) (p l i v : Nat) : (s.setX p l i v).mem = s.mem := rfl
@[simp] theorem State.setX_inv (s : State) (p l i v : Nat) : (s.setX p l i v).inv = s.inv := rfl
@[simp] theorem State.setX_cur (s : State) (p l i v : Nat) : (s.setX p l i v).cur = s.cur := rfl
@[simp] theorem State.setX_arc (s : State) (p l i v : Nat) : (s.setX p l i v).arc = s.arc := rfl
@[simp] theorem State.setX_tx (s : State) (p l i v : Nat) : (s.setX p l i v).tx = s.tx := rfl
@[simp] theorem State.setX_ports (s : State) (p l i v : Nat) : (s.setX p l i v).ports = s.ports := rfl
@[simp] theorem State.setX_convs (s : State) (p l i v : Nat) : (s.setX p l i v).convs = s.convs := rfl
@[simp] theorem State.setX_colls (s : State) (p l i v : Nat) : (s.setX p l i v).colls = s.colls := rfl
@[simp] theorem State.setX_casts (s : State) (p l i v : Nat) : (s.setX p l i v).casts = s.casts := rfl
@[simp] theorem State.setX_rng (s : State) (p l i v : Nat) : (s.setX p l i v).rng = s.rng := rfl
@[simp] theorem State.setX_set (s : State) (p l i v : Nat) : (s.setX p l i v).set = s.set := rfl
@[simp] theorem State.setX_boot (s : State) (p l i v : Nat) : (s.setX p l i v).boot = s.boot := rfl
@[simp] theorem State.setX_fuses (s : State) (p l i v : Nat) : (s.setX p l i v).fuses = s.fuses := rfl
@[simp] theorem State.setX_arbs (s : State) (p l i v : Nat) : (s.setX p l i v).arbs = s.arbs := rfl
@[simp] theorem State.setX_transit (s : State) (p l i v : Nat) : (s.setX p l i v).transit = s.transit := rfl
@[simp] theorem State.setX_power (s : State) (p l i v : Nat) : (s.setX p l i v).power = s.power := rfl
@[simp] theorem State.setX_contacts (s : State) (p l i v : Nat) : (s.setX p l i v).contacts = s.contacts := rfl
@[simp] theorem State.setX_clocks (s : State) (p l i v : Nat) : (s.setX p l i v).clocks = s.clocks := rfl
@[simp] theorem State.setX_counters (s : State) (p l i v : Nat) : (s.setX p l i v).counters = s.counters := rfl
@[simp] theorem State.setX_trace (s : State) (p l i v : Nat) : (s.setX p l i v).trace = s.trace := rfl
@[simp] theorem State.setX_free (s : State) (p l i v : Nat) : (s.setX p l i v).free = s.free := rfl
@[simp] theorem State.setX_timers (s : State) (p l i v : Nat) : (s.setX p l i v).timers = s.timers := rfl

/-! #### updList -/

@[simp] theorem State.updList_pending (s : State) (p l : Nat) (f : WorkList → WorkList) : (s.updList p l f).pending = s.pending := rfl
@[simp] theorem State.updList_mesh (s : State) (p l : Nat) (f : WorkList → WorkList) : (s.updList p l f).mesh = s.mesh := rfl
@[simp] theorem State.updList_mem (s : State) (p l : Nat) (f : WorkList → WorkList) : (s.updList p l f).mem = s.mem := rfl
@[simp] theorem State.updList_inv (s : State) (p l : Nat) (f : WorkList → WorkList) : (s.updList p l f).inv = s.inv := rfl
@[simp] theorem State.updList_cur (s : State) (p l : Nat) (f : WorkList → WorkList) : (s.updList p l f).cur = s.cur := rfl
@[simp] theorem State.updList_arc (s : State) (p l : Nat) (f : WorkList → WorkList) : (s.updList p l f).arc = s.arc := rfl
@[simp] theorem State.updList_tx (s : State) (p l : Nat) (f : WorkList → WorkList) : (s.updList p l f).tx = s.tx := rfl
@[simp] theorem State.updList_ports (s : State) (p l : Nat) (f : WorkList → WorkList) : (s.updList p l f).ports = s.ports := rfl
@[simp] theorem State.updList_convs (s : State) (p l : Nat) (f : WorkList → WorkList) : (s.updList p l f).convs = s.convs := rfl
@[simp] theorem State.updList_colls (s : State) (p l : Nat) (f : WorkList → WorkList) : (s.updList p l f).colls = s.colls := rfl
@[simp] theorem State.updList_casts (s : State) (p l : Nat) (f : WorkList → WorkList) : (s.updList p l f).casts = s.casts := rfl
@[simp] theorem State.updList_rng (s : State) (p l : Nat) (f : WorkList → WorkList) : (s.updList p l f).rng = s.rng := rfl
@[simp] theorem State.updList_set (s : State) (p l : Nat) (f : WorkList → WorkList) : (s.updList p l f).set = s.set := rfl
@[simp] theorem State.updList_boot (s : State) (p l : Nat) (f : WorkList → WorkList) : (s.updList p l f).boot = s.boot := rfl
@[simp] theorem State.updList_fuses (s : State) (p l : Nat) (f : WorkList → WorkList) : (s.updList p l f).fuses = s.fuses := rfl
@[simp] theorem State.updList_arbs (s : State) (p l : Nat) (f : WorkList → WorkList) : (s.updList p l f).arbs = s.arbs := rfl
@[simp] theorem State.updList_transit (s : State) (p l : Nat) (f : WorkList → WorkList) : (s.updList p l f).transit = s.transit := rfl
@[simp] theorem State.updList_power (s : State) (p l : Nat) (f : WorkList → WorkList) : (s.updList p l f).power = s.power := rfl
@[simp] theorem State.updList_contacts (s : State) (p l : Nat) (f : WorkList → WorkList) : (s.updList p l f).contacts = s.contacts := rfl
@[simp] theorem State.updList_clocks (s : State) (p l : Nat) (f : WorkList → WorkList) : (s.updList p l f).clocks = s.clocks := rfl
@[simp] theorem State.updList_counters (s : State) (p l : Nat) (f : WorkList → WorkList) : (s.updList p l f).counters = s.counters := rfl
@[simp] theorem State.updList_trace (s : State) (p l : Nat) (f : WorkList → WorkList) : (s.updList p l f).trace = s.trace := rfl
@[simp] theorem State.updList_free (s : State) (p l : Nat) (f : WorkList → WorkList) : (s.updList p l f).free = s.free := rfl
@[simp] theorem State.updList_timers (s : State) (p l : Nat) (f : WorkList → WorkList) : (s.updList p l f).timers = s.timers := rfl

/-! #### updStarted -/

@[simp] theorem State.updStarted_pending (s : State) (p q j : Nat) (f : Started → Started) : (s.updStarted p q j f).pending = s.pending := rfl
@[simp] theorem State.updStarted_mesh (s : State) (p q j : Nat) (f : Started → Started) : (s.updStarted p q j f).mesh = s.mesh := rfl
@[simp] theorem State.updStarted_mem (s : State) (p q j : Nat) (f : Started → Started) : (s.updStarted p q j f).mem = s.mem := rfl
@[simp] theorem State.updStarted_inv (s : State) (p q j : Nat) (f : Started → Started) : (s.updStarted p q j f).inv = s.inv := rfl
@[simp] theorem State.updStarted_cur (s : State) (p q j : Nat) (f : Started → Started) : (s.updStarted p q j f).cur = s.cur := rfl
@[simp] theorem State.updStarted_arc (s : State) (p q j : Nat) (f : Started → Started) : (s.updStarted p q j f).arc = s.arc := rfl
@[simp] theorem State.updStarted_tx (s : State) (p q j : Nat) (f : Started → Started) : (s.updStarted p q j f).tx = s.tx := rfl
@[simp] theorem State.updStarted_ports (s : State) (p q j : Nat) (f : Started → Started) : (s.updStarted p q j f).ports = s.ports := rfl
@[simp] theorem State.updStarted_convs (s : State) (p q j : Nat) (f : Started → Started) : (s.updStarted p q j f).convs = s.convs := rfl
@[simp] theorem State.updStarted_colls (s : State) (p q j : Nat) (f : Started → Started) : (s.updStarted p q j f).colls = s.colls := rfl
@[simp] theorem State.updStarted_casts (s : State) (p q j : Nat) (f : Started → Started) : (s.updStarted p q j f).casts = s.casts := rfl
@[simp] theorem State.updStarted_rng (s : State) (p q j : Nat) (f : Started → Started) : (s.updStarted p q j f).rng = s.rng := rfl
@[simp] theorem State.updStarted_set (s : State) (p q j : Nat) (f : Started → Started) : (s.updStarted p q j f).set = s.set := rfl
@[simp] theorem State.updStarted_boot (s : State) (p q j : Nat) (f : Started → Started) : (s.updStarted p q j f).boot = s.boot := rfl
@[simp] theorem State.updStarted_fuses (s : State) (p q j : Nat) (f : Started → Started) : (s.updStarted p q j f).fuses = s.fuses := rfl
@[simp] theorem State.updStarted_arbs (s : State) (p q j : Nat) (f : Started → Started) : (s.updStarted p q j f).arbs = s.arbs := rfl
@[simp] theorem State.updStarted_transit (s : State) (p q j : Nat) (f : Started → Started) : (s.updStarted p q j f).transit = s.transit := rfl
@[simp] theorem State.updStarted_power (s : State) (p q j : Nat) (f : Started → Started) : (s.updStarted p q j f).power = s.power := rfl
@[simp] theorem State.updStarted_contacts (s : State) (p q j : Nat) (f : Started → Started) : (s.updStarted p q j f).contacts = s.contacts := rfl
@[simp] theorem State.updStarted_clocks (s : State) (p q j : Nat) (f : Started → Started) : (s.updStarted p q j f).clocks = s.clocks := rfl
@[simp] theorem State.updStarted_counters (s : State) (p q j : Nat) (f : Started → Started) : (s.updStarted p q j f).counters = s.counters := rfl
@[simp] theorem State.updStarted_trace (s : State) (p q j : Nat) (f : Started → Started) : (s.updStarted p q j f).trace = s.trace := rfl
@[simp] theorem State.updStarted_free (s : State) (p q j : Nat) (f : Started → Started) : (s.updStarted p q j f).free = s.free := rfl
@[simp] theorem State.updStarted_timers (s : State) (p q j : Nat) (f : Started → Started) : (s.updStarted p q j f).timers = s.timers := rfl

/-! #### addSignal -/

@[simp] theorem State.addSignal_pending (s : State) (p e n : Nat) : (s.addSignal p e n).pending = s.pending := rfl
@[simp] theorem State.addSignal_mesh (s : State) (p e n : Nat) : (s.addSignal p e n).mesh = s.mesh := rfl
@[simp] theorem State.addSignal_mem (s : State) (p e n : Nat) : (s.addSignal p e n).mem = s.mem := rfl
@[simp] theorem State.addSignal_inv (s : State) (p e n : Nat) : (s.addSignal p e n).inv = s.inv := rfl
@[simp] theorem State.addSignal_cur (s : State) (p e n : Nat) : (s.addSignal p e n).cur = s.cur := rfl
@[simp] theorem State.addSignal_arc (s : State) (p e n : Nat) : (s.addSignal p e n).arc = s.arc := rfl
@[simp] theorem State.addSignal_tx (s : State) (p e n : Nat) : (s.addSignal p e n).tx = s.tx := rfl
@[simp] theorem State.addSignal_ports (s : State) (p e n : Nat) : (s.addSignal p e n).ports = s.ports := rfl
@[simp] theorem State.addSignal_convs (s : State) (p e n : Nat) : (s.addSignal p e n).convs = s.convs := rfl
@[simp] theorem State.addSignal_colls (s : State) (p e n : Nat) : (s.addSignal p e n).colls = s.colls := rfl
@[simp] theorem State.addSignal_casts (s : State) (p e n : Nat) : (s.addSignal p e n).casts = s.casts := rfl
@[simp] theorem State.addSignal_rng (s : State) (p e n : Nat) : (s.addSignal p e n).rng = s.rng := rfl
@[simp] theorem State.addSignal_set (s : State) (p e n : Nat) : (s.addSignal p e n).set = s.set := rfl
@[simp] theorem State.addSignal_boot (s : State) (p e n : Nat) : (s.addSignal p e n).boot = s.boot := rfl
@[simp] theorem State.addSignal_fuses (s : State) (p e n : Nat) : (s.addSignal p e n).fuses = s.fuses := rfl
@[simp] theorem State.addSignal_arbs (s : State) (p e n : Nat) : (s.addSignal p e n).arbs = s.arbs := rfl
@[simp] theorem State.addSignal_transit (s : State) (p e n : Nat) : (s.addSignal p e n).transit = s.transit := rfl
@[simp] theorem State.addSignal_power (s : State) (p e n : Nat) : (s.addSignal p e n).power = s.power := rfl
@[simp] theorem State.addSignal_contacts (s : State) (p e n : Nat) : (s.addSignal p e n).contacts = s.contacts := rfl
@[simp] theorem State.addSignal_clocks (s : State) (p e n : Nat) : (s.addSignal p e n).clocks = s.clocks := rfl
@[simp] theorem State.addSignal_counters (s : State) (p e n : Nat) : (s.addSignal p e n).counters = s.counters := rfl
@[simp] theorem State.addSignal_trace (s : State) (p e n : Nat) : (s.addSignal p e n).trace = s.trace := rfl
@[simp] theorem State.addSignal_free (s : State) (p e n : Nat) : (s.addSignal p e n).free = s.free := rfl
@[simp] theorem State.addSignal_timers (s : State) (p e n : Nat) : (s.addSignal p e n).timers = s.timers := rfl

/-! #### setSignal -/

@[simp] theorem State.setSignal_pending (s : State) (p e v : Nat) : (s.setSignal p e v).pending = s.pending := rfl
@[simp] theorem State.setSignal_mesh (s : State) (p e v : Nat) : (s.setSignal p e v).mesh = s.mesh := rfl
@[simp] theorem State.setSignal_mem (s : State) (p e v : Nat) : (s.setSignal p e v).mem = s.mem := rfl
@[simp] theorem State.setSignal_inv (s : State) (p e v : Nat) : (s.setSignal p e v).inv = s.inv := rfl
@[simp] theorem State.setSignal_cur (s : State) (p e v : Nat) : (s.setSignal p e v).cur = s.cur := rfl
@[simp] theorem State.setSignal_arc (s : State) (p e v : Nat) : (s.setSignal p e v).arc = s.arc := rfl
@[simp] theorem State.setSignal_tx (s : State) (p e v : Nat) : (s.setSignal p e v).tx = s.tx := rfl
@[simp] theorem State.setSignal_ports (s : State) (p e v : Nat) : (s.setSignal p e v).ports = s.ports := rfl
@[simp] theorem State.setSignal_convs (s : State) (p e v : Nat) : (s.setSignal p e v).convs = s.convs := rfl
@[simp] theorem State.setSignal_colls (s : State) (p e v : Nat) : (s.setSignal p e v).colls = s.colls := rfl
@[simp] theorem State.setSignal_casts (s : State) (p e v : Nat) : (s.setSignal p e v).casts = s.casts := rfl
@[simp] theorem State.setSignal_rng (s : State) (p e v : Nat) : (s.setSignal p e v).rng = s.rng := rfl
@[simp] theorem State.setSignal_set (s : State) (p e v : Nat) : (s.setSignal p e v).set = s.set := rfl
@[simp] theorem State.setSignal_boot (s : State) (p e v : Nat) : (s.setSignal p e v).boot = s.boot := rfl
@[simp] theorem State.setSignal_fuses (s : State) (p e v : Nat) : (s.setSignal p e v).fuses = s.fuses := rfl
@[simp] theorem State.setSignal_arbs (s : State) (p e v : Nat) : (s.setSignal p e v).arbs = s.arbs := rfl
@[simp] theorem State.setSignal_transit (s : State) (p e v : Nat) : (s.setSignal p e v).transit = s.transit := rfl
@[simp] theorem State.setSignal_power (s : State) (p e v : Nat) : (s.setSignal p e v).power = s.power := rfl
@[simp] theorem State.setSignal_contacts (s : State) (p e v : Nat) : (s.setSignal p e v).contacts = s.contacts := rfl
@[simp] theorem State.setSignal_clocks (s : State) (p e v : Nat) : (s.setSignal p e v).clocks = s.clocks := rfl
@[simp] theorem State.setSignal_counters (s : State) (p e v : Nat) : (s.setSignal p e v).counters = s.counters := rfl
@[simp] theorem State.setSignal_trace (s : State) (p e v : Nat) : (s.setSignal p e v).trace = s.trace := rfl
@[simp] theorem State.setSignal_free (s : State) (p e v : Nat) : (s.setSignal p e v).free = s.free := rfl
@[simp] theorem State.setSignal_timers (s : State) (p e v : Nat) : (s.setSignal p e v).timers = s.timers := rfl

/-! #### startTimer -/

@[simp] theorem State.startTimer_pending (s : State) (k : Timer) (d : Nat) : (s.startTimer k d).pending = s.pending := rfl
@[simp] theorem State.startTimer_tiles (s : State) (k : Timer) (d : Nat) : (s.startTimer k d).tiles = s.tiles := rfl
@[simp] theorem State.startTimer_mesh (s : State) (k : Timer) (d : Nat) : (s.startTimer k d).mesh = s.mesh := rfl
@[simp] theorem State.startTimer_mem (s : State) (k : Timer) (d : Nat) : (s.startTimer k d).mem = s.mem := rfl
@[simp] theorem State.startTimer_inv (s : State) (k : Timer) (d : Nat) : (s.startTimer k d).inv = s.inv := rfl
@[simp] theorem State.startTimer_cur (s : State) (k : Timer) (d : Nat) : (s.startTimer k d).cur = s.cur := rfl
@[simp] theorem State.startTimer_arc (s : State) (k : Timer) (d : Nat) : (s.startTimer k d).arc = s.arc := rfl
@[simp] theorem State.startTimer_tx (s : State) (k : Timer) (d : Nat) : (s.startTimer k d).tx = s.tx := rfl
@[simp] theorem State.startTimer_ports (s : State) (k : Timer) (d : Nat) : (s.startTimer k d).ports = s.ports := rfl
@[simp] theorem State.startTimer_convs (s : State) (k : Timer) (d : Nat) : (s.startTimer k d).convs = s.convs := rfl
@[simp] theorem State.startTimer_colls (s : State) (k : Timer) (d : Nat) : (s.startTimer k d).colls = s.colls := rfl
@[simp] theorem State.startTimer_casts (s : State) (k : Timer) (d : Nat) : (s.startTimer k d).casts = s.casts := rfl
@[simp] theorem State.startTimer_rng (s : State) (k : Timer) (d : Nat) : (s.startTimer k d).rng = s.rng := rfl
@[simp] theorem State.startTimer_set (s : State) (k : Timer) (d : Nat) : (s.startTimer k d).set = s.set := rfl
@[simp] theorem State.startTimer_boot (s : State) (k : Timer) (d : Nat) : (s.startTimer k d).boot = s.boot := rfl
@[simp] theorem State.startTimer_fuses (s : State) (k : Timer) (d : Nat) : (s.startTimer k d).fuses = s.fuses := rfl
@[simp] theorem State.startTimer_arbs (s : State) (k : Timer) (d : Nat) : (s.startTimer k d).arbs = s.arbs := rfl
@[simp] theorem State.startTimer_transit (s : State) (k : Timer) (d : Nat) : (s.startTimer k d).transit = s.transit := rfl
@[simp] theorem State.startTimer_power (s : State) (k : Timer) (d : Nat) : (s.startTimer k d).power = s.power := rfl
@[simp] theorem State.startTimer_contacts (s : State) (k : Timer) (d : Nat) : (s.startTimer k d).contacts = s.contacts := rfl
@[simp] theorem State.startTimer_clocks (s : State) (k : Timer) (d : Nat) : (s.startTimer k d).clocks = s.clocks := rfl
@[simp] theorem State.startTimer_counters (s : State) (k : Timer) (d : Nat) : (s.startTimer k d).counters = s.counters := rfl
@[simp] theorem State.startTimer_trace (s : State) (k : Timer) (d : Nat) : (s.startTimer k d).trace = s.trace := rfl
@[simp] theorem State.startTimer_free (s : State) (k : Timer) (d : Nat) : (s.startTimer k d).free = s.free := rfl

/-! #### stopTimers -/

@[simp] theorem State.stopTimers_pending (s : State) (f : Timer → Bool) : (s.stopTimers f).pending = s.pending := rfl
@[simp] theorem State.stopTimers_tiles (s : State) (f : Timer → Bool) : (s.stopTimers f).tiles = s.tiles := rfl
@[simp] theorem State.stopTimers_mesh (s : State) (f : Timer → Bool) : (s.stopTimers f).mesh = s.mesh := rfl
@[simp] theorem State.stopTimers_mem (s : State) (f : Timer → Bool) : (s.stopTimers f).mem = s.mem := rfl
@[simp] theorem State.stopTimers_inv (s : State) (f : Timer → Bool) : (s.stopTimers f).inv = s.inv := rfl
@[simp] theorem State.stopTimers_cur (s : State) (f : Timer → Bool) : (s.stopTimers f).cur = s.cur := rfl
@[simp] theorem State.stopTimers_arc (s : State) (f : Timer → Bool) : (s.stopTimers f).arc = s.arc := rfl
@[simp] theorem State.stopTimers_tx (s : State) (f : Timer → Bool) : (s.stopTimers f).tx = s.tx := rfl
@[simp] theorem State.stopTimers_ports (s : State) (f : Timer → Bool) : (s.stopTimers f).ports = s.ports := rfl
@[simp] theorem State.stopTimers_convs (s : State) (f : Timer → Bool) : (s.stopTimers f).convs = s.convs := rfl
@[simp] theorem State.stopTimers_colls (s : State) (f : Timer → Bool) : (s.stopTimers f).colls = s.colls := rfl
@[simp] theorem State.stopTimers_casts (s : State) (f : Timer → Bool) : (s.stopTimers f).casts = s.casts := rfl
@[simp] theorem State.stopTimers_rng (s : State) (f : Timer → Bool) : (s.stopTimers f).rng = s.rng := rfl
@[simp] theorem State.stopTimers_set (s : State) (f : Timer → Bool) : (s.stopTimers f).set = s.set := rfl
@[simp] theorem State.stopTimers_boot (s : State) (f : Timer → Bool) : (s.stopTimers f).boot = s.boot := rfl
@[simp] theorem State.stopTimers_fuses (s : State) (f : Timer → Bool) : (s.stopTimers f).fuses = s.fuses := rfl
@[simp] theorem State.stopTimers_arbs (s : State) (f : Timer → Bool) : (s.stopTimers f).arbs = s.arbs := rfl
@[simp] theorem State.stopTimers_transit (s : State) (f : Timer → Bool) : (s.stopTimers f).transit = s.transit := rfl
@[simp] theorem State.stopTimers_power (s : State) (f : Timer → Bool) : (s.stopTimers f).power = s.power := rfl
@[simp] theorem State.stopTimers_contacts (s : State) (f : Timer → Bool) : (s.stopTimers f).contacts = s.contacts := rfl
@[simp] theorem State.stopTimers_clocks (s : State) (f : Timer → Bool) : (s.stopTimers f).clocks = s.clocks := rfl
@[simp] theorem State.stopTimers_counters (s : State) (f : Timer → Bool) : (s.stopTimers f).counters = s.counters := rfl
@[simp] theorem State.stopTimers_trace (s : State) (f : Timer → Bool) : (s.stopTimers f).trace = s.trace := rfl
@[simp] theorem State.stopTimers_free (s : State) (f : Timer → Bool) : (s.stopTimers f).free = s.free := rfl

/-! #### note -/

@[simp] theorem State.note_pending (s : State) (x : Notice) : (s.note x).pending = s.pending := rfl
@[simp] theorem State.note_tiles (s : State) (x : Notice) : (s.note x).tiles = s.tiles := rfl
@[simp] theorem State.note_mesh (s : State) (x : Notice) : (s.note x).mesh = s.mesh := rfl
@[simp] theorem State.note_mem (s : State) (x : Notice) : (s.note x).mem = s.mem := rfl
@[simp] theorem State.note_inv (s : State) (x : Notice) : (s.note x).inv = s.inv := rfl
@[simp] theorem State.note_arc (s : State) (x : Notice) : (s.note x).arc = s.arc := rfl
@[simp] theorem State.note_tx (s : State) (x : Notice) : (s.note x).tx = s.tx := rfl
@[simp] theorem State.note_ports (s : State) (x : Notice) : (s.note x).ports = s.ports := rfl
@[simp] theorem State.note_convs (s : State) (x : Notice) : (s.note x).convs = s.convs := rfl
@[simp] theorem State.note_colls (s : State) (x : Notice) : (s.note x).colls = s.colls := rfl
@[simp] theorem State.note_casts (s : State) (x : Notice) : (s.note x).casts = s.casts := rfl
@[simp] theorem State.note_rng (s : State) (x : Notice) : (s.note x).rng = s.rng := rfl
@[simp] theorem State.note_set (s : State) (x : Notice) : (s.note x).set = s.set := rfl
@[simp] theorem State.note_boot (s : State) (x : Notice) : (s.note x).boot = s.boot := rfl
@[simp] theorem State.note_fuses (s : State) (x : Notice) : (s.note x).fuses = s.fuses := rfl
@[simp] theorem State.note_arbs (s : State) (x : Notice) : (s.note x).arbs = s.arbs := rfl
@[simp] theorem State.note_transit (s : State) (x : Notice) : (s.note x).transit = s.transit := rfl
@[simp] theorem State.note_power (s : State) (x : Notice) : (s.note x).power = s.power := rfl
@[simp] theorem State.note_contacts (s : State) (x : Notice) : (s.note x).contacts = s.contacts := rfl
@[simp] theorem State.note_clocks (s : State) (x : Notice) : (s.note x).clocks = s.clocks := rfl
@[simp] theorem State.note_counters (s : State) (x : Notice) : (s.note x).counters = s.counters := rfl
@[simp] theorem State.note_trace (s : State) (x : Notice) : (s.note x).trace = s.trace := rfl
@[simp] theorem State.note_free (s : State) (x : Notice) : (s.note x).free = s.free := rfl
@[simp] theorem State.note_timers (s : State) (x : Notice) : (s.note x).timers = s.timers := rfl

/-! #### pass -/

@[simp] theorem State.pass_pending (s : State) (d n : Nat) : (s.pass d n).pending = s.pending := rfl
@[simp] theorem State.pass_tiles (s : State) (d n : Nat) : (s.pass d n).tiles = s.tiles := rfl
@[simp] theorem State.pass_mesh (s : State) (d n : Nat) : (s.pass d n).mesh = s.mesh := rfl
@[simp] theorem State.pass_mem (s : State) (d n : Nat) : (s.pass d n).mem = s.mem := rfl
@[simp] theorem State.pass_inv (s : State) (d n : Nat) : (s.pass d n).inv = s.inv := rfl
@[simp] theorem State.pass_cur (s : State) (d n : Nat) : (s.pass d n).cur = s.cur := rfl
@[simp] theorem State.pass_arc (s : State) (d n : Nat) : (s.pass d n).arc = s.arc := rfl
@[simp] theorem State.pass_tx (s : State) (d n : Nat) : (s.pass d n).tx = s.tx := rfl
@[simp] theorem State.pass_ports (s : State) (d n : Nat) : (s.pass d n).ports = s.ports := rfl
@[simp] theorem State.pass_convs (s : State) (d n : Nat) : (s.pass d n).convs = s.convs := rfl
@[simp] theorem State.pass_colls (s : State) (d n : Nat) : (s.pass d n).colls = s.colls := rfl
@[simp] theorem State.pass_casts (s : State) (d n : Nat) : (s.pass d n).casts = s.casts := rfl
@[simp] theorem State.pass_rng (s : State) (d n : Nat) : (s.pass d n).rng = s.rng := rfl
@[simp] theorem State.pass_set (s : State) (d n : Nat) : (s.pass d n).set = s.set := rfl
@[simp] theorem State.pass_boot (s : State) (d n : Nat) : (s.pass d n).boot = s.boot := rfl
@[simp] theorem State.pass_fuses (s : State) (d n : Nat) : (s.pass d n).fuses = s.fuses := rfl
@[simp] theorem State.pass_arbs (s : State) (d n : Nat) : (s.pass d n).arbs = s.arbs := rfl
@[simp] theorem State.pass_transit (s : State) (d n : Nat) : (s.pass d n).transit = s.transit := rfl
@[simp] theorem State.pass_power (s : State) (d n : Nat) : (s.pass d n).power = s.power := rfl
@[simp] theorem State.pass_contacts (s : State) (d n : Nat) : (s.pass d n).contacts = s.contacts := rfl
@[simp] theorem State.pass_counters (s : State) (d n : Nat) : (s.pass d n).counters = s.counters := rfl
@[simp] theorem State.pass_trace (s : State) (d n : Nat) : (s.pass d n).trace = s.trace := rfl
@[simp] theorem State.pass_free (s : State) (d n : Nat) : (s.pass d n).free = s.free := rfl
@[simp] theorem State.pass_timers (s : State) (d n : Nat) : (s.pass d n).timers = s.timers := rfl

/-! #### setDue -/

@[simp] theorem State.setDue_pending (s : State) (p n r : Nat) : (s.setDue p n r).pending = s.pending := rfl
@[simp] theorem State.setDue_mesh (s : State) (p n r : Nat) : (s.setDue p n r).mesh = s.mesh := rfl
@[simp] theorem State.setDue_mem (s : State) (p n r : Nat) : (s.setDue p n r).mem = s.mem := rfl
@[simp] theorem State.setDue_inv (s : State) (p n r : Nat) : (s.setDue p n r).inv = s.inv := rfl
@[simp] theorem State.setDue_cur (s : State) (p n r : Nat) : (s.setDue p n r).cur = s.cur := rfl
@[simp] theorem State.setDue_arc (s : State) (p n r : Nat) : (s.setDue p n r).arc = s.arc := rfl
@[simp] theorem State.setDue_tx (s : State) (p n r : Nat) : (s.setDue p n r).tx = s.tx := rfl
@[simp] theorem State.setDue_ports (s : State) (p n r : Nat) : (s.setDue p n r).ports = s.ports := rfl
@[simp] theorem State.setDue_convs (s : State) (p n r : Nat) : (s.setDue p n r).convs = s.convs := rfl
@[simp] theorem State.setDue_colls (s : State) (p n r : Nat) : (s.setDue p n r).colls = s.colls := rfl
@[simp] theorem State.setDue_casts (s : State) (p n r : Nat) : (s.setDue p n r).casts = s.casts := rfl
@[simp] theorem State.setDue_rng (s : State) (p n r : Nat) : (s.setDue p n r).rng = s.rng := rfl
@[simp] theorem State.setDue_set (s : State) (p n r : Nat) : (s.setDue p n r).set = s.set := rfl
@[simp] theorem State.setDue_boot (s : State) (p n r : Nat) : (s.setDue p n r).boot = s.boot := rfl
@[simp] theorem State.setDue_fuses (s : State) (p n r : Nat) : (s.setDue p n r).fuses = s.fuses := rfl
@[simp] theorem State.setDue_arbs (s : State) (p n r : Nat) : (s.setDue p n r).arbs = s.arbs := rfl
@[simp] theorem State.setDue_transit (s : State) (p n r : Nat) : (s.setDue p n r).transit = s.transit := rfl
@[simp] theorem State.setDue_power (s : State) (p n r : Nat) : (s.setDue p n r).power = s.power := rfl
@[simp] theorem State.setDue_contacts (s : State) (p n r : Nat) : (s.setDue p n r).contacts = s.contacts := rfl
@[simp] theorem State.setDue_clocks (s : State) (p n r : Nat) : (s.setDue p n r).clocks = s.clocks := rfl
@[simp] theorem State.setDue_counters (s : State) (p n r : Nat) : (s.setDue p n r).counters = s.counters := rfl
@[simp] theorem State.setDue_trace (s : State) (p n r : Nat) : (s.setDue p n r).trace = s.trace := rfl
@[simp] theorem State.setDue_free (s : State) (p n r : Nat) : (s.setDue p n r).free = s.free := rfl
@[simp] theorem State.setDue_timers (s : State) (p n r : Nat) : (s.setDue p n r).timers = s.timers := rfl

/-! ### Tiles -/

theorem State.tile_setTile (s : State) (p q : Nat) (t : Tile) :
    (s.setTile p t).tile q = if p = q then t else s.tile q := Sparse.get_set Tile.reset s.tiles p q t

@[simp] theorem State.tile_setTile_same (s : State) (p : Nat) (t : Tile) : (s.setTile p t).tile p = t := by
  simp [State.tile_setTile]

theorem State.tile_setTile_ne (s : State) {p q : Nat} (t : Tile) (h : p ≠ q) : (s.setTile p t).tile q = s.tile q := by
  simp [State.tile_setTile, h]

theorem State.tile_updTile (s : State) (p q : Nat) (f : Tile → Tile) :
    (s.updTile p f).tile q = if p = q then f (s.tile p) else s.tile q := State.tile_setTile s p q (f (s.tile p))

@[simp] theorem State.tile_updTile_same (s : State) (p : Nat) (f : Tile → Tile) :
    (s.updTile p f).tile p = f (s.tile p) := by simp [State.tile_updTile]

theorem State.tile_updTile_ne (s : State) {p q : Nat} (f : Tile → Tile) (h : p ≠ q) :
    (s.updTile p f).tile q = s.tile q := by simp [State.tile_updTile, h]

/-- The tiles of a state decide what `tile` reads. -/
theorem State.tile_congr {s u : State} (h : u.tiles = s.tiles) (p : Nat) : u.tile p = s.tile p := by
  unfold State.tile; rw [h]

/-! ### The tables of a tile -/

theorem Tile.bank_setBank (t : Tile) (b c : Nat) (x : Bank) :
    (t.setBank b x).bank c = if b = c then x else t.bank c := Sparse.get_set Bank.reset t.banks b c x

theorem Tile.queue_setQueue (t : Tile) (a b : Nat) (x : Queue) :
    (t.setQueue a x).queue b = if a = b then x else t.queue b := Sparse.get_set Queue.reset t.queues a b x

theorem Tile.window_setWindow (t : Tile) (a b : Nat) (x : Window) :
    (t.setWindow a x).window b = if a = b then x else t.window b := Sparse.get_set Window.reset t.windows a b x

theorem Tile.list_setList (t : Tile) (a b : Nat) (w : WorkList) :
    (t.setList a w).list b = if a = b then w else t.list b := Sparse.get_set WorkList.reset t.lists a b w

theorem Tile.ramp_setRamp (t : Tile) (a b : Nat) (r : Ramp) :
    (t.setRamp a r).ramp b = if a = b then r else t.ramp b := Sparse.get_set Ramp.idle t.ramps a b r

/-! ### Other tables of the state -/

theorem State.ent_setEnt (s : State) (p q : Nat) (e : TileEnt) :
    (s.setEnt p e).ent q = if p = q then e else s.ent q := Sparse.get_set TileEnt.reset s.inv.tiles p q e

theorem State.clock_setClock (s : State) (d e : Nat) (c : Clock) :
    (s.setClock d c).clock e = if d = e then c else s.clock e := Sparse.get_set Clock.reset s.clocks d e c

/-- A timer that starts reads its die's counter, and no other timer changes. -/
theorem State.startTimer_same (s : State) (k : Timer) (d : Nat) :
    (s.startTimer k d).timers.filter (fun e => e.1 == k) = [(k, d, (s.clock d).count)] := by
  simp only [State.startTimer, List.filter_append, List.filter_filter]
  simp

theorem State.startTimer_ne (s : State) {k j : Timer} (d : Nat) (h : j ≠ k) :
    (s.startTimer k d).timers.filter (fun e => e.1 == j) = s.timers.filter (fun e => e.1 == j) := by
  have hk : (k == j) = false := by simpa using Ne.symm h
  simp only [State.startTimer, List.filter_append, List.filter_filter]
  simp only [List.filter_cons, hk, List.filter_nil]
  refine (List.append_nil _).trans (List.filter_congr fun e _ => ?_)
  by_cases he : e.1 = j
  · simp [he, h]
  · simp [he]

theorem State.cport_setPort (s : State) (p q : Nat) (c : CwyPort) :
    (s.setPort p c).cport q = if p = q then c else s.cport q := Sparse.get_set CwyPort.reset s.ports p q c

theorem State.counter_bump (s : State) (c h n : Nat) :
    (s.bump c h n).counter c h = min (s.counter c h + n) (2 ^ 48 - 1) := by
  simp [State.bump, State.counter, Sparse.get_modify]

theorem State.counter_bump_ne (s : State) (c h n d k : Nat) (hne : counterKey c h ≠ counterKey d k) :
    (s.bump c h n).counter d k = s.counter d k := by
  simp [State.bump, State.counter, Sparse.get_modify, hne]

/-! #### The input buffer and the waiting weight rows of an array -/

@[simp] theorem Tile.setInput_rows (t : Tile) (a : Nat) (l : List (BitVec 544)) : (t.setInput a l).rows = t.rows := rfl
@[simp] theorem Tile.setInput_groups (t : Tile) (a : Nat) (l : List (BitVec 544)) : (t.setInput a l).groups = t.groups := rfl
@[simp] theorem Tile.setTail_rows (t : Tile) (a : Nat) (l : List Nat) : (t.setTail a l).rows = t.rows := rfl
@[simp] theorem Tile.setTail_groups (t : Tile) (a : Nat) (l : List Nat) : (t.setTail a l).groups = t.groups := rfl

theorem Tile.input_setInput (t : Tile) (a b : Nat) (l : List (BitVec 544)) :
    (t.setInput a l).input b = if a = b then l else t.input b := Sparse.get_set [] t.inputs a b l

theorem Tile.tail_setTail (t : Tile) (a b : Nat) (l : List Nat) :
    (t.setTail a l).tail b = if a = b then l else t.tail b := Sparse.get_set [] t.tails a b l

/-- Rows that pass the input buffer of an array change nothing else of the tile, and the buffer never holds more than 4 (R40). -/
theorem Tile.takeInputs_frame (a n : Nat) (t : Tile) (l : List (BitVec 544)) :
    (∃ m, t.takeInputs a n l = { t with inputs := m }) ∧
      ((t.input a).length ≤ inputDepth → ((t.takeInputs a n l).input a).length ≤ inputDepth) := by
  induction n generalizing t l with
  | zero => exact ⟨⟨t.inputs, rfl⟩, id⟩
  | succ n ih =>
    obtain ⟨⟨m, hm⟩, hl⟩ := ih (t.setInput a ((t.input a ++ l.take (inputDepth - (t.input a).length)).drop 1))
      (l.drop (inputDepth - (t.input a).length))
    refine ⟨⟨m, hm⟩, fun h => hl ?_⟩
    rw [Tile.input_setInput, if_pos rfl]
    simp only [List.length_drop, List.length_append, List.length_take]
    omega

end Sys2Proof.Machine
end

