-- ==== Sys2Proof/Laws/Count.lean ====
section
/-! SUPPORT. Counting: everything an increment can change, and the value it leaves. -/

namespace Sys2Proof.Machine

/-- An increment changes counters, the trace and the counts held through start-up, and nothing else. -/
theorem State.count_eq (s : State) (c h n : Nat) :
    s.count c h n = { s with
      counters := (s.count c h n).counters, trace := (s.count c h n).trace,
      boot := { s.boot with held := (s.count c h n).boot.held } } := by
  unfold State.count
  split
  · rfl
  · split
    · rfl
    · simp only []
      split
      · rfl
      · split <;> first
          | rfl
          | (unfold State.offerTrace; simp only []; split <;> rfl)

@[simp] theorem State.count_uncounted (s : State) (c h n : Nat) : (s.count c h n).uncounted = s.uncounted := by
  rw [State.count_eq]; rfl

@[simp] theorem State.count_tiles (s : State) (c h n : Nat) : (s.count c h n).tiles = s.tiles := by rw [State.count_eq]
@[simp] theorem State.count_pending (s : State) (c h n : Nat) : (s.count c h n).pending = s.pending := by rw [State.count_eq]
@[simp] theorem State.count_mesh (s : State) (c h n : Nat) : (s.count c h n).mesh = s.mesh := by rw [State.count_eq]
@[simp] theorem State.count_mem (s : State) (c h n : Nat) : (s.count c h n).mem = s.mem := by rw [State.count_eq]
@[simp] theorem State.count_inv (s : State) (c h n : Nat) : (s.count c h n).inv = s.inv := by rw [State.count_eq]
@[simp] theorem State.count_cur (s : State) (c h n : Nat) : (s.count c h n).cur = s.cur := by rw [State.count_eq]
@[simp] theorem State.count_arc (s : State) (c h n : Nat) : (s.count c h n).arc = s.arc := by rw [State.count_eq]
@[simp] theorem State.count_tx (s : State) (c h n : Nat) : (s.count c h n).tx = s.tx := by rw [State.count_eq]
@[simp] theorem State.count_ports (s : State) (c h n : Nat) : (s.count c h n).ports = s.ports := by rw [State.count_eq]
@[simp] theorem State.count_convs (s : State) (c h n : Nat) : (s.count c h n).convs = s.convs := by rw [State.count_eq]
@[simp] theorem State.count_colls (s : State) (c h n : Nat) : (s.count c h n).colls = s.colls := by rw [State.count_eq]
@[simp] theorem State.count_casts (s : State) (c h n : Nat) : (s.count c h n).casts = s.casts := by rw [State.count_eq]
@[simp] theorem State.count_rng (s : State) (c h n : Nat) : (s.count c h n).rng = s.rng := by rw [State.count_eq]
@[simp] theorem State.count_set (s : State) (c h n : Nat) : (s.count c h n).set = s.set := by rw [State.count_eq]
@[simp] theorem State.count_fuses (s : State) (c h n : Nat) : (s.count c h n).fuses = s.fuses := by rw [State.count_eq]
@[simp] theorem State.count_arbs (s : State) (c h n : Nat) : (s.count c h n).arbs = s.arbs := by rw [State.count_eq]
@[simp] theorem State.count_transit (s : State) (c h n : Nat) : (s.count c h n).transit = s.transit := by rw [State.count_eq]
@[simp] theorem State.count_contacts (s : State) (c h n : Nat) : (s.count c h n).contacts = s.contacts := by
  rw [State.count_eq]
@[simp] theorem State.count_power (s : State) (c h n : Nat) : (s.count c h n).power = s.power := by rw [State.count_eq]
@[simp] theorem State.count_clocks (s : State) (c h n : Nat) : (s.count c h n).clocks = s.clocks := by rw [State.count_eq]
@[simp] theorem State.count_free (s : State) (c h n : Nat) : (s.count c h n).free = s.free := by rw [State.count_eq]
@[simp] theorem State.count_phase (s : State) (c h n : Nat) : (s.count c h n).boot.phase = s.boot.phase := by
  rw [State.count_eq]

@[simp] theorem State.count_tile (s : State) (c h n p : Nat) : (s.count c h n).tile p = s.tile p :=
  State.tile_congr (State.count_tiles s c h n) p

@[simp] theorem State.count_ent (s : State) (c h n p : Nat) : (s.count c h n).ent p = s.ent p := by
  simp [State.ent]

@[simp] theorem State.count_phys (s : State) (c h n t : Nat) : (s.count c h n).phys t = s.phys t := by
  simp [State.phys]

@[simp] theorem State.count_live (s : State) (c h n k : Nat) : (s.count c h n).live k = s.live k := by
  simp [State.live]

/-- Counting `n` events one by one changes what counting changes. -/
@[simp] theorem State.countEach_uncounted (s : State) (c h n : Nat) : (s.countEach c h n).uncounted = s.uncounted := by
  induction n generalizing s with
  | zero => rfl
  | succ n ih => simp only [State.countEach, ih, State.count1, State.count_uncounted]

@[simp] theorem State.countEach_tiles (s : State) (c h n : Nat) : (s.countEach c h n).tiles = s.tiles :=
  show (s.countEach c h n).uncounted.tiles = _ by rw [State.countEach_uncounted]; rfl

@[simp] theorem State.countEach_mem (s : State) (c h n : Nat) : (s.countEach c h n).mem = s.mem :=
  show (s.countEach c h n).uncounted.mem = _ by rw [State.countEach_uncounted]; rfl

/-- The counter of an event of tiles or arrays, when the device runs. -/
theorem State.counter_count_tile (s : State) (c h n : Nat) (hp : s.boot.phase = 5) (hn : n ≠ 0)
    (hh : counterHome c = some .tile ∨ counterHome c = some .array) :
    (s.count c h n).counter c h = min (s.counter c h + n) (2 ^ 48 - 1) := by
  unfold State.count
  rcases hh with hh | hh <;> simp [hn, hp, hh, State.counter_bump]

/-- The counter of any event, when the device runs; the dropped trace record's own counter is another. -/
theorem State.counter_count (s : State) (c h n : Nat) (hp : s.boot.phase = 5) (hn : n ≠ 0)
    (hd : counterKey 0x2201 0 ≠ counterKey c h) :
    (s.count c h n).counter c h = min (s.counter c h + n) (2 ^ 48 - 1) := by
  unfold State.count
  simp only [hn, if_false, hp]
  have offer : ∀ sc : Nat, ((s.bump c h n).offerTrace c sc n).counter c h = min (s.counter c h + n) (2 ^ 48 - 1) := by
    intro sc
    unfold State.offerTrace
    simp only []
    split
    · exact State.counter_bump s c h n
    · rw [State.counter_bump_ne _ _ _ _ _ _ hd]
      exact State.counter_bump s c h n
  split
  · omega
  · split
    · omega
    · split <;> first
        | exact State.counter_bump s c h n
        | exact offer _

end Sys2Proof.Machine
end

