-- ==== Sys2Proof/Laws/Memory.lean ====
section
/-! SUPPORT. Every operation on memory keeps its canonical form, and what a write of a row changes. -/

namespace Sys2Proof.Machine

theorem Memory.wf_intro {m : Memory} (h : Sparse.wf 0 m.hbm = true) (c : Sparse.wf 0 m.cxl = true)
    (p : Sparse.wf 0 m.comp = true) : m.wf = true := by
  unfold Memory.wf
  rw [h, c, p]; rfl

theorem State.wf_congr {s u : State} (hm : u.mem = s.mem) (ht : u.tiles = s.tiles) (h : s.wf) : u.wf := by
  refine ⟨by rw [hm]; exact h.1, by rw [ht]; exact h.2.1, fun p => ?_⟩
  rw [State.tile_congr ht]; exact h.2.2 p

theorem State.wf_setTile {s : State} (p : Nat) (t : Tile) (h : s.wf) (ht : Sparse.wf 0 t.rows = true) : (s.setTile p t).wf := by
  refine ⟨h.1, Sparse.wf_set _ _ _ _ h.2.1, fun q => ?_⟩
  rw [State.tile_setTile]
  split
  · exact ht
  · exact h.2.2 q

/-- A change of a tile that leaves its rows as they are, or in canonical form. -/
theorem State.wf_updTile {s : State} (p : Nat) (f : Tile → Tile) (h : s.wf)
    (hf : ∀ t : Tile, Sparse.wf 0 t.rows = true → Sparse.wf 0 (f t).rows = true) : (s.updTile p f).wf :=
  State.wf_setTile p _ h (hf _ (h.2.2 p))

theorem State.wf_count {s : State} (c k n : Nat) (h : s.wf) : (s.count c k n).wf :=
  State.wf_congr (by simp) (by simp) h

theorem State.wf_count1 {s : State} (c k : Nat) (h : s.wf) : (s.count1 c k).wf := State.wf_count c k 1 h

theorem State.wf_countIf {s : State} (b : Bool) (c k : Nat) (h : s.wf) : (s.countIf b c k).wf := by
  unfold State.countIf; split
  · exact State.wf_count c k 1 h
  · exact h

theorem Tile.store_rows (t : Tile) (r : Nat) (x : Row) : (t.store r x).rows = Sparse.set 0 t.rows r x := rfl

/-- Storing a row: every row reads as before but the one named. -/
theorem Tile.get_store (t : Tile) (r q : Nat) (x : Row) :
    Sparse.get 0 (t.store r x).rows q = if r = q then x else Sparse.get 0 t.rows q := by
  rw [Tile.store_rows, Sparse.get_set]

theorem State.wf_setRow {s : State} (p r : Nat) (x : Row) (h : s.wf) : (setRow s p r x).wf :=
  State.wf_updTile p _ h (fun t ht => by rw [Tile.store_rows]; exact Sparse.wf_set _ _ _ _ ht)

theorem setRow_get (s : State) (p r q : Nat) (x : Row) :
    Sparse.get 0 ((setRow s p r x).tile p).rows q = if r = q then x else Sparse.get 0 (s.tile p).rows q := by
  unfold setRow
  rw [State.tile_updTile_same, Tile.get_store]

theorem State.wf_writeRow {s : State} (p r : Nat) (x : Row) (h : s.wf) : (writeRow s p r x).wf := by
  unfold writeRow; split
  · exact State.wf_count1 _ _ h
  · exact State.wf_setRow p r x h

/-- A write of any agent changes at most the row it names; a program row keeps its contents (R163). -/
theorem writeRow_get (s : State) (p r q : Nat) (x : Row) :
    Sparse.get 0 ((writeRow s p r x).tile p).rows q =
      if r = q ∧ (s.tile p).progRow r = false then x else Sparse.get 0 (s.tile p).rows q := by
  unfold writeRow
  cases h : (s.tile p).progRow r with
  | true =>
    simp only [if_true, Bool.true_eq_false, and_false, if_false, State.count1, State.count_tile]
  | false =>
    simp only [Bool.false_eq_true, if_false, and_true, setRow_get]

theorem State.wf_writeRows {s : State} (p r : Nat) (xs : List Row) (h : s.wf) : (writeRows s p r xs).wf := by
  induction xs generalizing s r with
  | nil => exact h
  | cons x xs ih => exact ih (r + 1) (State.wf_writeRow p r x h)

theorem State.wf_record {s : State} (a b c d : Nat) (h : s.wf) : (s.record a b c d).wf := by
  unfold State.record; split
  · exact State.wf_count1 _ _ h
  · exact State.wf_congr rfl rfl h

theorem State.wf_failTile {s : State} (p cause : Nat) (b : Bool) (h : s.wf) : (s.failTile p cause b).wf := by
  unfold State.failTile
  split
  · exact h
  · split
    · exact h
    · simp only []
      split
      · exact State.wf_congr rfl rfl h
      · exact State.wf_congr rfl rfl h

theorem Tile.setBank_rows (t : Tile) (b : Nat) (x : Bank) : (t.setBank b x).rows = t.rows := rfl

theorem State.wf_retireRow {s : State} (p b br : Nat) (x : Row) (h : s.wf) : (s.retireRow p b br x).wf := by
  unfold State.retireRow
  simp only []
  split
  · split
    · exact h
    · exact State.wf_failTile _ _ _ (State.wf_record _ _ _ _ (State.wf_count1 _ _ (State.wf_setTile _ _ h (h.2.2 p))))
  · refine State.wf_record _ _ _ _ (State.wf_count1 _ _ (State.wf_setTile _ _ h ?_))
    simp only []
    split
    · exact Sparse.wf_set _ _ _ _ (h.2.2 p)
    · exact h.2.2 p

theorem State.wf_noteRead {s : State} (p b br : Nat) (f : Sensed) (h : s.wf) : (s.noteRead p b br f).wf := by
  have first : ∀ u : State, u.wf →
      (if f.uncorrectable then (u.count1 0x0D02 p).retireRow p b br f.data else u).wf := by
    intro u hu
    split
    · exact State.wf_retireRow _ _ _ _ (State.wf_count1 _ _ hu)
    · exact hu
  have hc := State.wf_count1 0x0D01 p h
  have hs : ∀ k : Bank, ((s.count1 0x0D01 p).setTile p (((s.count1 0x0D01 p).tile p).setBank b k)).wf := fun k =>
    State.wf_setTile _ _ hc (by rw [Tile.setBank_rows]; exact hc.2.2 p)
  have last : ∀ (c : Prop) [Decidable c] (k : Bank),
      (if c then ((s.count1 0x0D01 p).setTile p (((s.count1 0x0D01 p).tile p).setBank b k)).retireRow p b br f.data
       else (s.count1 0x0D01 p).setTile p (((s.count1 0x0D01 p).tile p).setBank b k)).wf := by
    intro c _ k
    split
    · exact State.wf_retireRow _ _ _ _ (hs k)
    · exact hs k
  unfold State.noteRead
  refine first _ ?_
  split
  · exact last _ _
  · exact h

theorem State.wf_writeBack {s : State} (p b br : Nat) (h : s.wf) : (s.writeBack p b br).wf := by
  unfold State.writeBack
  simp only []
  split
  · exact State.wf_setTile _ _ h (by
      show Sparse.wf 0 (Tile.store _ _ _).rows = true
      rw [Tile.store_rows]
      exact Sparse.wf_set _ _ _ _ (h.2.2 p))
  · exact State.wf_setTile _ _ h (h.2.2 p)

theorem State.wf_settle {s : State} (p b br : Nat) (h : s.wf) : (s.settle p b br).wf := by
  unfold State.settle
  split
  · exact State.wf_writeBack _ _ _ h
  · exact h

theorem readRow_wf {s : State} (p r : Nat) (h : s.wf) : (readRow s p r).1.wf := by
  unfold readRow
  simp only []
  split
  · exact h
  · have hs := State.wf_settle p (bankOf r).1 (bankOf r).2 h
    split
    · exact State.wf_noteRead _ _ _ _ hs
    · exact hs

/-- A checked read of a row without a faulty cell or an outstanding write-back changes nothing. -/
theorem readRow_clean (s : State) (p r : Nat) (h : (s.tile p).cleanAt r = true) :
    readRow s p r = (s, if Sparse.get false (s.tile p).fresh r then 0 else Sparse.get 0 (s.tile p).rows r) := by
  obtain ⟨h1, h2⟩ : (s.tile p).faultsAt (bankOf r).1 (bankOf r).2 = [] ∧
      ((s.tile p).bank (bankOf r).1).wback.contains (bankOf r).2 = false := by
    unfold Tile.cleanAt at h
    rwa [Bool.and_eq_true, List.isEmpty_iff, Bool.not_eq_true'] at h
  have e : s.settle p (bankOf r).1 (bankOf r).2 = s := by
    unfold State.settle
    simp only [h2, Bool.false_eq_true, if_false]
  have e2 : senseRow (Sparse.get 0 (s.tile p).rows r) [] = ⟨Sparse.get 0 (s.tile p).rows r, false, false⟩ := rfl
  cases hf : Sparse.get false (s.tile p).fresh r with
  | true => simp only [readRow, hf, if_true]
  | false => simp only [readRow, hf, e, h1, e2, Bool.false_eq_true, or_self, if_false]

theorem readRows_wf {s : State} (p r n : Nat) (h : s.wf) : (readRows s p r n).1.wf := by
  induction n generalizing s r with
  | zero => exact h
  | succ n ih =>
    have e : (readRows s p r (n + 1)).1 = (readRows (readRow s p r).1 p (r + 1) n).1 := by simp only [readRows]
    rw [e]
    exact ih (r + 1) (readRow_wf p r h)

theorem State.wf_entry {s : State} (p : Nat) (e : Entry) (h : s.wf) : (s.entry p e).wf := by
  unfold State.entry
  split
  · exact h
  · simp only []
    split
    · exact State.wf_setRow _ _ _ (readRow_wf _ _ (State.wf_updTile p _ h (fun _ ht => ht)))
    · exact State.wf_count1 _ _ (State.wf_updTile p _ h (fun _ ht => ht))

theorem State.wf_addSignal {s : State} (p e n : Nat) (h : s.wf) : (s.addSignal p e n).wf :=
  State.wf_updTile p _ h (fun _ ht => ht)

theorem State.wf_writeMem {s : State} (pl : Place) (x : Row) (h : s.wf) : (s.writeMem pl x).wf := by
  obtain ⟨hm, ht, hr⟩ := h
  unfold Memory.wf at hm
  simp only [Bool.and_eq_true] at hm
  cases pl with
  | hbm r => exact ⟨Memory.wf_intro (Sparse.wf_set _ _ _ _ hm.1.1) hm.1.2 hm.2, ht, hr⟩
  | cxl c r => exact ⟨Memory.wf_intro hm.1.1 (Sparse.wf_set _ _ _ _ hm.1.2) hm.2, ht, hr⟩
  | comp r => exact ⟨Memory.wf_intro hm.1.1 hm.1.2 (Sparse.wf_set _ _ _ _ hm.2), ht, hr⟩
  | scr t r => exact ⟨Memory.wf_intro hm.1.1 hm.1.2 hm.2, ht, hr⟩
  | peer a b c d e => exact ⟨Memory.wf_intro hm.1.1 hm.1.2 hm.2, ht, hr⟩

theorem State.wf_writeResult {s : State} (pl : Place) (xs : List Row) (h : s.wf) : (s.writeResult pl xs).wf := by
  induction xs generalizing s pl with
  | nil => exact h
  | cons x xs ih => exact ih (pl.plus 1) (State.wf_writeMem pl x h)

theorem State.wf_writePlace {s : State} (pl : Place) (x : Row) (h : s.wf) : (s.writePlace pl x).wf := by
  unfold State.writePlace
  split
  · split
    · exact State.wf_writeRow _ _ _ h
    · exact h
  · exact State.wf_writeMem _ _ h

theorem State.wf_writePlaces {s : State} (pl : Place) (xs : List Row) (h : s.wf) : (s.writePlaces pl xs).wf := by
  induction xs generalizing s pl with
  | nil => exact h
  | cons x xs ih => exact ih (pl.plus 1) (State.wf_writePlace pl x h)

theorem State.wf_setChannel {s : State} (c : Nat) (x : Channel) (h : s.wf) : (s.setChannel c x).wf := by
  obtain ⟨hm, ht, hr⟩ := h
  exact ⟨hm, ht, hr⟩

theorem State.wf_writeHbm {s : State} (r : Nat) (x : Row) (h : s.wf) : (s.writeHbm r x).wf := by
  obtain ⟨hm, ht, hr⟩ := h
  unfold Memory.wf at hm
  simp only [Bool.and_eq_true] at hm
  exact ⟨Memory.wf_intro (Sparse.wf_set _ _ _ _ hm.1.1) hm.1.2 hm.2, ht, hr⟩

theorem State.wf_relocate {s : State} (c page : Nat) (h : s.wf) : (s.relocate c page).1.wf := by
  have fold : ∀ (l : List (Nat × Row)) (u : State), u.wf → (l.foldl (fun s e => s.writeHbm e.1 e.2) u).wf := by
    intro l
    induction l with
    | nil => exact fun u hu => hu
    | cons e l ih => exact fun u hu => ih _ (State.wf_writeHbm _ _ hu)
  unfold State.relocate
  simp only []
  split
  · exact State.wf_record _ _ _ _ (State.wf_count1 _ _ h)
  · exact State.wf_record _ _ _ _ (State.wf_count1 _ _ (fold _ _ (State.wf_setChannel _ _ h)))

theorem State.wf_readHbm {s : State} (r : Nat) (h : s.wf) : (s.readHbm r).1.wf := by
  unfold State.readHbm
  simp only []
  split
  · exact h
  · simp only []
    split
    · exact State.wf_relocate _ _ (State.wf_count1 _ _ h)
    · unfold State.hbmCorrected
      simp only []
      split
      · exact State.wf_relocate _ _ (State.wf_setChannel _ _ h)
      · exact State.wf_setChannel _ _ h

theorem State.wf_readCxl {s : State} (x r : Nat) (h : s.wf) : (s.readCxl x r).1.wf := by
  unfold State.readCxl
  simp only []
  split
  · exact h
  · exact State.wf_count1 _ _ h

theorem State.wf_readPlace {s : State} (pl : Place) (h : s.wf) : (s.readPlace pl).1.wf := by
  cases pl with
  | hbm r => exact State.wf_readHbm r h
  | cxl x r => exact State.wf_readCxl x r h
  | comp r => exact h
  | scr t r =>
    unfold State.readPlace
    simp only []
    split
    · exact readRow_wf _ _ h
    · exact h
  | peer a b c d e => exact h

theorem State.wf_readPlaces {s : State} (pl : Place) (n : Nat) (h : s.wf) : (s.readPlaces pl n).1.wf := by
  induction n generalizing s pl with
  | zero => exact h
  | succ n ih => exact ih (pl.plus 1) (State.wf_readPlace pl h)

theorem State.wf_ringWrite {s : State} (r : BitVec 256) (h : s.wf) : (s.ringWrite r).wf := by
  obtain ⟨hm, ht, hr⟩ := h
  unfold Memory.wf at hm
  simp only [Bool.and_eq_true] at hm
  unfold State.ringWrite
  simp only []
  split
  · exact ⟨Memory.wf_intro hm.1.1 hm.1.2 (Sparse.wf_set _ _ _ _ hm.2), ht, hr⟩
  · exact ⟨Memory.wf_intro hm.1.1 hm.1.2 (Sparse.wf_set _ _ _ _ hm.2), ht, hr⟩

/-- A lost expander takes its rows with it; the tables stay in canonical form. -/
theorem Memory.wf_dropCxl (m : Memory) (f : Nat → Bool) (h : m.wf = true) :
    ({ m with cxl := Sparse.filterKeys m.cxl f } : Memory).wf = true := by
  unfold Memory.wf at h ⊢
  simp only [Bool.and_eq_true] at h ⊢
  exact ⟨⟨h.1.1, Sparse.wf_filter _ _ _ h.1.2⟩, h.2⟩

/-- What a reset leaves of the memories is in canonical form. -/
theorem State.wf_wipe {s : State} (hbm acc : Bool) (h : s.wf) : (s.wipe hbm acc).wf := by
  obtain ⟨hm, ht, hr⟩ := h
  unfold Memory.wf at hm
  simp only [Bool.and_eq_true] at hm
  refine ⟨?_, ?_, fun p => ?_⟩
  · cases hbm
    · exact Memory.wf_intro rfl rfl hm.2
    · exact Memory.wf_intro hm.1.1 rfl hm.2
  · simp only [State.wipe]
    exact Sparse.wf_mapVals _ _ _ ht
  · unfold State.wipe State.tile
    simp only []
    rw [Sparse.get_mapVals _ _ _ (by cases acc <;> rfl) ht]
    cases acc
    · rfl
    · exact Sparse.wf_filter _ _ _ (hr p)

end Sys2Proof.Machine
end

