-- ==== Sys2Proof/Laws/Issue.lean ====
section
/-! SUPPORT. Once for all commands: when an operation or a command of Curator runs, and what the shared steps around its
effect change. -/

namespace Sys2Proof.Machine

/-! ### Operations of tile programs -/

/-- A fetch through rows without a fault changes nothing. -/
theorem State.fetch_clean {s : State} {p : Nat} {la : Launch} {o : Op}
    (h : o.slot = 0 → ∀ r ∈ bundleRows la.compat la.progBase o.bundle (fld o.raw 0 2 == 3), (s.tile p).cleanAt r = true) :
    s.fetch p la o = s := by
  have fold : ∀ l : List Nat, (∀ r ∈ l, (s.tile p).cleanAt r = true) → l.foldl (fun s r => (readRow s p r).1) s = s := by
    intro l
    induction l with
    | nil => exact fun _ => rfl
    | cons r l ih =>
      intro h
      simp only [List.foldl_cons]
      rw [readRow_clean s p r (h r (List.mem_cons_self ..))]
      exact ih (fun q hq => h q (List.mem_cons_of_mem _ hq))
  unfold State.fetch
  split
  · rfl
  · next hs => exact fold _ (h (Classical.not_not.mp hs))

/-- A fetch keeps the memories in canonical form. -/
theorem State.wf_fetch {s : State} (p : Nat) (la : Launch) (o : Op) (h : s.wf) : (s.fetch p la o).wf := by
  have fold : ∀ (l : List Nat) (u : State), u.wf → (l.foldl (fun s r => (readRow s p r).1) u).wf := by
    intro l
    induction l with
    | nil => exact fun u hu => hu
    | cons r l ih => exact fun u hu => ih _ (readRow_wf p r hu)
  unfold State.fetch
  split
  · exact h
  · exact fold _ _ h

/-- The operation whose turn has come runs its meaning on the state that the fetch leaves. -/
theorem State.issue_of_reaches {s : State} {t l p : Nat} {c : Bool} {la : Launch} {o : Op} (h : Reaches s t l c p la o)
    {m : Nat → Bool} (hm : m o.code = true) (f : Nat → Op → State → State) :
    s.issue t l c m f = f p o (s.fetch p la o) := by
  simp only [State.issue, h.phys, h.launch, h.next, h.mode, hm, and_self, if_true]

/-- The operation that issues runs its meaning. -/
theorem State.issue_of_issues {s : State} {t l p : Nat} {c : Bool} {la : Launch} {o : Op} (h : Issues s t l c p la o)
    {m : Nat → Bool} (hm : m o.code = true) (f : Nat → Op → State → State) : s.issue t l c m f = f p o s := by
  rw [State.issue_of_reaches h.toReaches hm, State.fetch_clean h.bundleRead]

/-- An issue changes nothing, or runs its meaning on the operation that issues. -/
theorem State.issue_cases (s : State) (t l : Nat) (c : Bool) (m : Nat → Bool) (f : Nat → Op → State → State) :
    s.issue t l c m f = s ∨
      ∃ p la o, Reaches s t l c p la o ∧ m o.code = true ∧ s.issue t l c m f = f p o (s.fetch p la o) := by
  unfold State.issue
  split
  · exact .inl rfl
  · next p hp =>
    simp only []
    split
    · next la o hl ho =>
      split
      · next hc => exact .inr ⟨p, la, o, ⟨hp, hl, hc.1, ho⟩, hc.2, rfl⟩
      · exact .inl rfl
    · exact .inl rfl

/-- An issue keeps the memories in canonical form when its meaning does. -/
theorem State.wf_issue {s : State} (t l : Nat) (c : Bool) (m : Nat → Bool) (f : Nat → Op → State → State) (h : s.wf)
    (hf : ∀ p o (u : State), u.wf → (f p o u).wf) : (s.issue t l c m f).wf := by
  rcases State.issue_cases s t l c m f with e | ⟨p, la, o, -, -, e⟩ <;> rw [e]
  · exact h
  · exact hf p o _ (State.wf_fetch _ _ _ h)

/-- A list that runs off ends with an entry; nothing else happens there. -/
theorem State.wf_runOff {s : State} (p l : Nat) (la : Launch) (h : s.wf) : (s.runOff p l la).wf := by
  unfold State.runOff
  simp only []
  split
  · exact State.wf_entry _ _ (State.wf_updTile _ _ h (fun _ ht => ht))
  · exact h

theorem State.wf_noteBump {s : State} (p l e n : Nat) (h : s.wf) : (s.noteBump p l e n).wf :=
  State.wf_updTile _ _ h (fun _ ht => ht)

theorem State.wf_pastSlot {s : State} (p : Nat) (o : Op) (h : s.wf) : (s.pastSlot p o).wf := by
  unfold State.pastSlot
  simp only []
  split
  · exact h
  · exact State.wf_runOff _ _ _ (State.wf_setTile _ _ h (h.2.2 p))

theorem State.wf_complete {s : State} (p : Nat) (f : Flight) (h : s.wf) : (s.complete p f).wf := by
  have fold : ∀ (l : List Nat) (u : State), u.wf → (l.foldl (fun s t =>
      match f.doneSig, s.phys t with
      | some e, some q => if q = p then s else s.addSignal q e 1
      | _, _ => s) u).wf := by
    intro l
    induction l with
    | nil => exact fun u hu => hu
    | cons t l ih =>
      intro u hu
      refine ih _ ?_
      simp only []
      split
      · split
        · exact hu
        · exact State.wf_addSignal _ _ _ hu
      · exact hu
  have first : ∀ u : State, u.wf → (if f.crec ∨ f.status ≠ stOk then
      u.entry p { bundle := f.bundle, slot := f.slot, list := f.list, status := f.status, detail := f.detail,
                  opcode := f.opcode, res0 := f.res0, res1 := f.res1 } else u).wf := by
    intro u hu
    split
    · exact State.wf_entry _ _ hu
    · exact hu
  unfold State.complete
  refine first _ (fold _ _ ?_)
  split
  · exact State.wf_addSignal _ _ _ h
  · exact h

theorem Outcome.wf_now {r : Outcome} (p : Nat) (o : Op) (tiles : List Nat) (h : r.s.wf) : (r.now p o tiles).wf := by
  refine State.wf_pastSlot _ _ (State.wf_complete _ _ ?_)
  split
  · exact State.wf_noteBump _ _ _ _ h
  · exact h

theorem Outcome.wf_later {r : Outcome} (p : Nat) (o : Op) (units : List TileUnit) (regs tiles : List Nat) (h : r.s.wf) :
    (r.later p o units regs tiles).wf := by
  unfold Outcome.later
  split
  · exact Outcome.wf_now _ _ _ h
  · exact State.wf_pastSlot _ _ (State.wf_updTile _ _ h (fun _ ht => ht))

/-- A completion entry into a record whose rows have no fault touches the launch and a row of that record, and nothing else
of the block but counts. -/
theorem State.entry_outside (s : State) (p : Nat) (e : Entry)
    (h : ∀ la, (s.tile p).launch = some la →
      ∀ r, la.compRow < r → r < la.compRow + la.compRows → (s.tile p).cleanAt r = true) :
    (s.entry p e).uncounted = ({ s with tiles := (s.entry p e).tiles }).uncounted := by
  unfold State.entry
  split
  · rfl
  · next la hl =>
    simp only []
    split
    · next hr =>
      rw [readRow_clean]
      · rfl
      · rw [State.tile_updTile_same]
        exact h la hl _ (by omega) (by omega)
    · rw [State.count1, State.count_eq]; rfl

theorem State.retireRow_other (s : State) {p q : Nat} (b br : Nat) (x : Row) (h : p ≠ q) :
    (s.retireRow p b br x).tile q = s.tile q := by
  have recd : ∀ (u : State) (a b c d : Nat), (u.record a b c d).tile q = u.tile q := by
    intro u a b c d
    unfold State.record
    split
    · exact State.count_tile _ _ _ _ _
    · rfl
  have fail : ∀ (u : State) (c : Nat) (k : Bool), (u.failTile p c k).tile q = u.tile q := by
    intro u c k
    unfold State.failTile
    split
    · rfl
    · split
      · rfl
      · simp only []
        split <;> rfl
  unfold State.retireRow
  simp only []
  split
  · split
    · rfl
    · rw [fail, recd, State.count1, State.count_tile, State.tile_setTile_ne _ _ h]
  · rw [recd, State.count1, State.count_tile, State.tile_setTile_ne _ _ h]

theorem State.noteRead_other (s : State) {p q : Nat} (b br : Nat) (f : Sensed) (h : p ≠ q) :
    (s.noteRead p b br f).tile q = s.tile q := by
  have first : ∀ u : State, u.tile q = s.tile q →
      (if f.uncorrectable then (u.count1 0x0D02 p).retireRow p b br f.data else u).tile q = s.tile q := by
    intro u hu
    split
    · rw [State.retireRow_other _ _ _ _ h, State.count1, State.count_tile, hu]
    · exact hu
  have last : ∀ (c : Prop) [Decidable c] (u : State), u.tile q = s.tile q →
      (if c then u.retireRow p b br f.data else u).tile q = s.tile q := by
    intro c _ u hu
    split
    · rw [State.retireRow_other _ _ _ _ h, hu]
    · exact hu
  unfold State.noteRead
  refine first _ ?_
  split
  · exact last _ _ (by rw [State.tile_setTile_ne _ _ h, State.count1, State.count_tile])
  · rfl

/-- A checked read of a row of one tile leaves every other tile as it is. -/
theorem readRow_other (s : State) {p q : Nat} (r : Nat) (h : p ≠ q) : (readRow s p r).1.tile q = s.tile q := by
  have settle : ∀ b br : Nat, (s.settle p b br).tile q = s.tile q := by
    intro b br
    unfold State.settle State.writeBack
    simp only []
    split
    · split <;> exact State.tile_setTile_ne _ _ h
    · rfl
  unfold readRow
  simp only []
  split
  · rfl
  · split
    · rw [State.noteRead_other _ _ _ _ h, settle]
    · exact settle _ _

theorem State.entry_other (s : State) (p q : Nat) (e : Entry) (h : p ≠ q) : (s.entry p e).tile q = s.tile q := by
  unfold State.entry
  split
  · rfl
  · simp only []
    split
    · unfold setRow
      rw [State.tile_updTile_ne _ _ h, readRow_other _ _ h, State.tile_updTile_ne _ _ h]
    · rw [State.count1, State.count_tile, State.tile_updTile_ne _ _ h]

/-! ### Commands of Curator -/

/-- A command that starts with its parameters in range runs its meaning. -/
theorem State.run_of_starts {s : State} {n op : Nat} {c : Cmd} (h : Starts s n op c) (f : Cmd → State → State) :
    s.run n op f = f c s := by
  obtain ⟨hc, ho, hs, m, ps, hp, hf⟩ := h
  simp only [State.run, hc, hp, ho, hs, and_self, if_true, hf]

/-- A command of Curator does nothing, is answered BAD_PARAM for a parameter out of range, or runs its meaning. -/
theorem State.run_cases (s : State) (n op : Nat) (f : Cmd → State → State) :
    s.run n op f = s ∨ (∃ d, s.run n op f = s.final n stBadParam d []) ∨
      ∃ c, Starts s n op c ∧ s.run n op f = f c s := by
  unfold State.run
  split
  · exact .inl rfl
  · next c hc =>
    split
    · exact .inl rfl
    · next m ps hp =>
      split
      · next hs =>
        split
        · next d _ => exact .inr (.inl ⟨d, rfl⟩)
        · next hf => exact .inr (.inr ⟨c, ⟨hc, hs.1, hs.2, m, ps, hp, hf⟩, rfl⟩)
      · exact .inl rfl

/-- The final reply of a command of the journal, in the form that claims speak of. -/
theorem State.answered_final {s : State} {n : Nat} {c : Cmd} (hc : s.cmd n = some c) (st d : Nat)
    (r : List Nat) : Answered s (s.final n st d r) c st d r := by
  simp only [Answered, State.final, hc]

/-- The number by which a command is found is its own. -/
theorem State.cmd_n {s : State} {n : Nat} {c : Cmd} (hc : s.cmd n = some c) : c.n = n := by
  have := List.find?_some hc
  simpa using this

end Sys2Proof.Machine
end

