-- ==== Sys2Proof/Laws/Numbers.lean ====
section
/-! SUPPORT. Constants of the model that are written out, tied to the rules they come from. -/

namespace Sys2Proof.Machine

/-- The key at reset is the one that R253 derives from SEED 0 and SALT 0. -/
theorem reset_key_derived : deriveKey 0 0 = Rng.reset.key := by decide +kernel

/-- The first eighty primes. -/
def shaPrimes : List Nat :=
  [2, 3, 5, 7, 11, 13, 17, 19, 23, 29, 31, 37, 41, 43, 47, 53, 59, 61, 67, 71] ++
  [73, 79, 83, 89, 97, 101, 103, 107, 109, 113, 127, 131, 137, 139, 149, 151, 157, 163, 167, 173] ++
  [179, 181, 191, 193, 197, 199, 211, 223, 227, 229, 233, 239, 241, 251, 257, 263, 269, 271, 277, 281] ++
  [283, 293, 307, 311, 313, 317, 331, 337, 347, 349, 353, 359, 367, 373, 379, 383, 389, 397, 401, 409]

/-- The list is that of the primes below 410: a number below 441 with no divisor below 21 is prime. -/
theorem sha_primes : shaPrimes = (List.range 410).filter (fun n => 2 ≤ n ∧ ∀ d, d < 21 → 2 ≤ d → d < n → n % d ≠ 0) := by
  decide +kernel

/-- Round constant `t` is the first 64 bits of the fraction of the cube root of prime `t` (FIPS 180-4, section 4.2.3). -/
theorem sha_constants : ∀ t, t < 80 → ∃ k, k < 8 ∧
    (k * 2 ^ 64 + shaConst t) ^ 3 ≤ shaPrimes.getD t 0 * 2 ^ 192 ∧
    shaPrimes.getD t 0 * 2 ^ 192 < (k * 2 ^ 64 + shaConst t + 1) ^ 3 := by decide +kernel

/-- The initial words of SHA-384 are those of the square roots of the ninth to the sixteenth prime (section 5.3.4). -/
theorem sha_start : ∀ i, i < 8 → ∃ k, k < 8 ∧
    (k * 2 ^ 64 + elem 64 shaStart i) ^ 2 ≤ shaPrimes.getD (8 + i) 0 * 2 ^ 128 ∧
    shaPrimes.getD (8 + i) 0 * 2 ^ 128 < (k * 2 ^ 64 + elem 64 shaStart i + 1) ^ 2 := by decide +kernel

end Sys2Proof.Machine
end

