-- ==== Sys2Proof/Laws/Replies.lean ====
section
/-! SUPPORT. Sending: what a frame, a sequenced frame and a reply can change. -/

namespace Sys2Proof.Machine

/-- A control frame that leaves is added to what has been driven and starts its lane's time, and nothing else changes. -/
theorem State.egress_eq (s : State) (p d : Nat) (b : Bytes) :
    s.egress p d b = { s with tx := (s.egress p d b).tx, timers := (s.egress p d b).timers } := by
  unfold State.egress State.driveLane State.driveFrame
  split <;> rfl

theorem State.touchConv_eq (s : State) (p h : Nat) : s.touchConv p h = { s with timers := (s.touchConv p h).timers } := by
  unfold State.touchConv
  split <;> rfl

theorem State.driveCtl_eq (s : State) (p h t n : Nat) (b : Bytes) :
    s.driveCtl p h t n b = { s with tx := (s.driveCtl p h t n b).tx, timers := (s.driveCtl p h t n b).timers } := by
  unfold State.driveCtl
  simp only []
  split
  · rw [State.touchConv_eq, State.egress_eq s]
  · rfl

theorem State.driveKept_eq (s : State) (p h : Nat) (k : Kept) :
    s.driveKept p h k = { s with tx := (s.driveKept p h k).tx, timers := (s.driveKept p h k).timers } := by
  unfold State.driveKept State.startRetry
  rw [State.driveCtl_eq]
  rfl

theorem State.openConv_eq (s : State) (p h : Nat) :
    (s.openConv p h).1 = { s with convs := (s.openConv p h).1.convs, timers := (s.openConv p h).1.timers } := by
  unfold State.openConv
  split
  · rfl
  · split <;> rfl

/-- A sequenced frame changes its conversation, what has been driven and the timers. -/
theorem State.sendSeq_eq (s : State) (p h t : Nat) (b : Bytes) (k : Option Nat) :
    (s.sendSeq p h t b k).1 = { s with
      convs := (s.sendSeq p h t b k).1.convs
      tx := (s.sendSeq p h t b k).1.tx
      timers := (s.sendSeq p h t b k).1.timers } := by
  have opened := State.openConv_eq s p h
  unfold State.sendSeq
  generalize s.openConv p h = r at opened
  obtain ⟨u, ok⟩ := r
  simp only at opened
  generalize u.convs = cs at opened
  generalize u.timers = ts at opened
  subst opened
  simp only []
  split
  · rfl
  · split
    · rfl
    · split
      · simp only []
        rw [State.driveKept_eq]
        rfl
      · rfl

/-- A reply on Arcade changes the ring and its waiting replies, companion memory, what has been driven, and counts. -/
theorem State.arcadeReply_eq (s : State) (k : ReplyKind) (r : BitVec 256) :
    (s.arcadeReply k r).uncounted = ({ s with
      arc := (s.arcadeReply k r).arc, tx := (s.arcadeReply k r).tx,
      mem := { s.mem with comp := (s.arcadeReply k r).mem.comp } }).uncounted := by
  unfold State.arcadeReply
  split
  · rw [State.count1, State.count_eq]; rfl
  · split
    · rw [State.count1, State.count_eq]; rfl
    · unfold State.ringWrite
      simp only []
      split <;> rfl

/-- A message on the strip's contacts changes only what has been driven. -/
theorem State.stripSend_eq (s : State) (x : Tx) : s.stripSend x = { s with tx := (s.stripSend x).tx } := by
  unfold State.stripSend
  split <;> rfl

/-- What sending a reply leaves alone. -/
theorem State.sendReply_quiet (s : State) (port : Port) (h n : Nat) (k : ReplyKind) (r : BitVec 256) :
    (s.sendReply port h n k r).quiet = s.quiet := by
  cases port with
  | arcade =>
    unfold State.sendReply State.arcadeReply
    simp only []
    split
    · rw [State.count1, State.count_eq]; rfl
    · split
      · rw [State.count1, State.count_eq]; rfl
      · unfold State.ringWrite
        simp only []
        split <;> rfl
  | cwy p =>
    unfold State.sendReply
    simp only []
    rw [State.sendSeq_eq]
    split <;> rfl
  | i3c =>
    unfold State.sendReply
    simp only []
    rw [State.stripSend_eq, State.stripSend_eq s]
    rfl
  | jtag =>
    unfold State.sendReply
    simp only []
    rw [State.stripSend_eq]
    rfl

/-- What the final reply of a command leaves alone. -/
theorem State.answerFinal_quiet (s : State) (c : Cmd) (r : BitVec 256) : (s.answerFinal c r).quiet = s.quiet := by
  rw [← State.sendReply_quiet s c.port c.house c.seq (.final c.n) r]
  unfold State.answerFinal
  simp only []
  split <;> rfl

/-- A reply keeps the memories in canonical form. -/
theorem State.wf_sendReply {s : State} (port : Port) (h n : Nat) (k : ReplyKind) (r : BitVec 256) (w : s.wf) :
    (s.sendReply port h n k r).wf := by
  cases port with
  | arcade =>
    unfold State.sendReply State.arcadeReply
    simp only []
    split
    · exact State.wf_count1 _ _ w
    · split
      · exact State.wf_count1 _ _ (State.wf_congr rfl rfl w)
      · exact State.wf_ringWrite r w
  | cwy p =>
    unfold State.sendReply
    simp only []
    rw [State.sendSeq_eq]
    split <;> exact State.wf_congr rfl rfl w
  | i3c =>
    unfold State.sendReply
    simp only []
    rw [State.stripSend_eq, State.stripSend_eq s]
    exact State.wf_congr rfl rfl w
  | jtag =>
    unfold State.sendReply
    simp only []
    rw [State.stripSend_eq]
    exact State.wf_congr rfl rfl w

/-- The final reply of a command keeps the memories in canonical form. -/
theorem State.wf_final {s : State} (n st d : Nat) (r : List Nat) (h : s.wf) : (s.final n st d r).wf := by
  unfold State.final
  split
  · exact h
  · next c _ =>
    have w := State.wf_sendReply c.port c.house c.seq (.final c.n) (mkReply c.hdr st d false r) h
    unfold State.answerFinal
    simp only []
    split <;> exact State.wf_congr rfl rfl w

/-- A command of Curator keeps the memories in canonical form when its meaning does. -/
theorem State.wf_run {s : State} (n op : Nat) (f : Cmd → State → State) (h : s.wf) (hf : ∀ c, (f c s).wf) :
    (s.run n op f).wf := by
  rcases State.run_cases s n op f with e | ⟨d, e⟩ | ⟨c, -, e⟩ <;> rw [e]
  · exact h
  · exact State.wf_final _ _ _ _ h
  · exact hf c

end Sys2Proof.Machine
end

