-- ==== Sys2Proof/Tests/States.lean ====
section
/-! SUPPORT. Small states for the tests: a device that has started, tiles with one bundle to issue, and commands that
Curator may start. -/

namespace Sys2Proof.Tests
open Sys2Proof.Machine
set_option Elab.async false

/-- The state that a result answers. -/
def after (r : Result) : State :=
  match r with
  | .next u => u
  | _ => State.reset

def image : Image :=
  { version := 3, security := 1, flash := 0, slot := 0, codeRows := 1, progRows := 1, entry := 0, hash := 0 }

def presented (t : Nat) : TileEnt := { TileEnt.reset with logical := t, role := roPresented }

/-- A device that has started: physical tiles 0 and 1 present logical tiles 0 and 1, every tile not listed is a spare, and Curator runs on
tile 30 with its standby on tile 31. -/
def device : State :=
  { State.reset with
    inv := { Inventory.reset with
      tiles := [(0, presented 0), (1, presented 1), (30, { TileEnt.reset with role := roCurator }),
                (31, { TileEnt.reset with role := roCurator })] }
    cur := { Curator.reset with ready := true, active := some 30, standby := some 31 }
    boot := { Boot.reset with phase := 5, strip := some false, image := some image, dir := some (0, 7) }
    arc := { Arcade.reset with linkUp := true }
    set := { Settings.reset with gen := 1, house := 5 }
    power := { Power.reset with rails := true } }

/-! ### Programs -/

def launch (compat : Bool) : Launch :=
  { progBase := 0x5000, progRows := 1, compat := compat, compRow := 0x5800, compRows := 2, launchId := 9, entries := 0,
    lost := 0, rejects := 0, first := none, stopping := none, cmd := 0 }

/-- Tile 0 runs a launch whose first bundle is `raw`, on work list 0; `f` sets up the rest of the tile. -/
def tileWith (compat : Bool) (raw : Nat) (f : Tile → Tile) : Tile :=
  f { Tile.reset with
      rows := [(0x5000, row raw)]
      launch := some (launch compat)
      lists := [(0, { WorkList.reset with enabled := true })] }

def running (compat : Bool) (raw : Nat) (f : Tile → Tile) : State := { device with tiles := [(0, tileWith compat raw f)] }

/-- A bundle of LAYOUT 0 with `x` in its first slot and nops after it; of LAYOUT 1 with `x` in its second slot; of LAYOUT 2;
of LAYOUT 3; and a compatibility bundle (Table 08-1, Table 08-14). -/
def bundle1 (x : Nat) : Nat := x <<< 16
def bundle2 (x : Nat) : Nat := 1 + x <<< 96
def bundle3 (x : Nat) : Nat := 2 + x <<< 16
def bundle6 (x : Nat) : Nat := 3 + x <<< 16
def cbundle (x : Nat) : Nat := x % 2 ^ 15 + (x >>> 16) <<< 20

/-- Registers of work list 0. -/
def withRegs (l : List (Nat × Word)) (t : Tile) : Tile :=
  t.setList 0 { t.list 0 with regs := l }

/-- The operation that list 0 of tile 0 issues next. -/
def opOf (s : State) : Op :=
  match (s.tile 0).next 0 with
  | some o => o
  | none => { code := 255, bits := 0, bundle := 0, slot := 0, list := 0, idx := 0, raw := 0, compat := false }

/-- List 0 of tile 0 issues an operation of code `code` next. -/
def issuing (s : State) (c : Bool) (code : Nat) : Bool :=
  s.phys 0 == some 0 && (s.tile 0).launch == some (launch c) && ((s.tile 0).next 0).isSome && (opOf s).code == code &&
  (bundleRows c 0x5000 (opOf s).bundle (fld (opOf s).raw 0 2 == 3)).all (fun r => (s.tile 0).cleanAt r) &&
  (s.tile 0).cleanAt 0x5801

theorem issues_of {s : State} {c : Bool} {code : Nat} (h : issuing s c code = true) :
    Issues s 0 0 c 0 (launch c) (opOf s) ∧ (opOf s).code = code := by
  simp only [issuing, Bool.and_eq_true, beq_iff_eq, List.all_eq_true] at h
  obtain ⟨⟨⟨⟨⟨hp, hl⟩, hn⟩, hc⟩, hb⟩, hr⟩ := h
  refine ⟨⟨⟨hp, hl, rfl, ?_⟩, fun _ => hb, fun la e r lo hi => ?_⟩, hc⟩
  · unfold opOf
    cases e : (s.tile 0).next 0 with
    | none => rw [e] at hn; cases hn
    | some o => rfl
  · rw [hl] at e; cases e
    have : r = 0x5801 := by simp only [launch] at lo hi; omega
    rw [this]; exact hr

/-- A tile whose banks have no fault, no remap and no write-back outstanding reads every row clean. -/
theorem clean_of_banks {t : Tile} (h : t.banks = []) (r : Nat) : t.cleanAt r = true := by
  have e (b : Nat) : t.bank b = Bank.reset := by simp [Tile.bank, h, Sparse.get]
  simp [Tile.cleanAt, Tile.faultsAt, e, Bank.reset, Sparse.get]

theorem get_banks {m : Sparse Tile} (h : m.all (fun e => e.2.banks == []) = true) (p : Nat) :
    (Sparse.get Tile.reset m p).banks = [] := by
  induction m with
  | nil => rfl
  | cons e l ih =>
    simp only [List.all_cons, Bool.and_eq_true, beq_iff_eq] at h
    unfold Sparse.get
    split
    · exact h.1
    · exact ih h.2

/-- Where no tile's banks hold anything and no memory has a fault, every read is clean. -/
theorem faultless_of {s : State} (h : s.tiles.all (fun e => e.2.banks == []) = true) (m : s.mem.hbmFaults = [])
    (c : s.mem.poison = []) : Faultless s := ⟨fun p => clean_of_banks (get_banks h p), m, c⟩

/-! ### Commands -/

/-- A command packet: opcode, TAG 1, parameters (Table 13-6). -/
def packet (op : Nat) (params : Nat) : BitVec 512 := BitVec.ofNat 512 (withCrc64 (op + 1 <<< 16 + params <<< 64))

def command (op params : Nat) (payload : Bytes) : Cmd :=
  { n := 4, port := .i3c, house := 0, seq := 0, hdr := packet op params, payload := payload, st := .queued, wait := .none }

/-- `s` with that command waiting as number 4. -/
def asks (s : State) (c : Cmd) : State := { s with cur := { s.cur with cmds := s.cur.cmds ++ [c], mirror := s.cur.mirror ++ [c], next := 5 } }

/-- Command 4 may start and its parameters are in range. -/
def starting (s : State) (op : Nat) (c : Cmd) : Bool :=
  s.cmd 4 == some c && hOpcode c.hdr == op && s.canStart c &&
  (match cmdSpec op with
   | some (_, ps) => paramFault op ps c.hdr == none
   | none => false)

theorem starts_of {s : State} {op : Nat} {c : Cmd} (h : starting s op c = true) : Starts s 4 op c := by
  simp only [starting, Bool.and_eq_true, beq_iff_eq] at h
  obtain ⟨⟨⟨hc, ho⟩, hs⟩, hp⟩ := h
  refine ⟨hc, ho, hs, ?_⟩
  split at hp
  · next m ps e => exact ⟨m, ps, e, by simpa using hp⟩
  · cases hp

/-- The STATUS, DETAIL and RESULT words of the last reply that went out by I3C. -/
def reply (u : State) : Option (Nat × Nat × Nat × Nat × Nat × Nat) :=
  match u.tx.getLast? with
  | some (.reply _ _ r) => some (fld r.toNat 16 8, fld r.toNat 24 16, fld r.toNat 64 32, fld r.toNat 96 32,
      fld r.toNat 128 32, fld r.toNat 160 32)
  | _ => none

end Sys2Proof.Tests
end

