-- ==== Sys2Proof/Tests/Programs.lean ====
section
/-! SUPPORT. Operations of tile programs: for each clause of a statement a state that meets all its hypotheses, with one
value that the spec's own words give for it. Encodings are Tables 08-1, 08-4, 08-5, 08-7, 08-10 and 08-15. -/

namespace Sys2Proof.Tests
open Sys2Proof.Machine
set_option Elab.async false

/-- Common fields of an operation: opcode, DONE_SIG, DONE_EN, CREC (Table 08-3). -/
def opBits (code : Nat) (fs : List (Nat × Nat × Nat)) : Nat := pack ((0, 8, code) :: fs)

/-- DONE_EN with DONE_SIG 7. -/
def done7 : List (Nat × Nat × Nat) := [(8, 5, 7), (13, 1, 1)]

/-! ### The sequencer -/

def sLi : State := running false (bundle1 (opBits 0x02 (done7 ++ [(16, 4, 3), (20, 44, 2 ^ 44 - 5)]))) id
def sLi0 : State := running false (bundle1 (opBits 0x02 [(16, 4, 0), (20, 44, 9)])) id
def cLi : State := running true (cbundle (opBits 0x02 [(16, 4, 15), (20, 44, 9)])) id

/-- IMM is sign-extended, DONE_SIG counts, and x0 discards the write. -/
theorem test_ctl_li :
    (Issues sLi 0 0 false 0 (launch false) (opOf sLi) ∧ (opOf sLi).code = 0x02) ∧
    (after (exec (.ctlLi 0 0) sLi)).x 0 0 3 = 2 ^ 64 - 5 ∧ ((after (exec (.ctlLi 0 0) sLi)).tile 0).signal 7 = 1 ∧
    ((after (exec (.ctlLi 0 0) sLi)).tile 0).list 0 = { (sLi.tile 0).list 0 with
      slot := 1, regs := [(3, 0xFFFFFFFFFFFFFFFB)], fetched := (opOf sLi).raw, bumps := [(7, 1)] } :=
  ⟨issues_of (by decide +kernel), by decide +kernel⟩

theorem test_ctl_li_x0 :
    (Issues sLi0 0 0 false 0 (launch false) (opOf sLi0) ∧ (opOf sLi0).code = 0x02) ∧
    (after (exec (.ctlLi 0 0) sLi0)).x 0 0 0 = 0 := ⟨issues_of (by decide +kernel), by decide +kernel⟩

theorem test_c_li :
    (Issues cLi 0 0 true 0 (launch true) (opOf cLi) ∧ (opOf cLi).code = 0x02) ∧
    (after (exec (.cLi 0 0) cLi)).x 0 0 15 = 9 ∧ ((after (exec (.cLi 0 0) cLi)).tile 0).list 0 =
      { (cLi.tile 0).list 0 with pc := 1, regs := [(15, 9)] } := ⟨issues_of (by decide +kernel), by decide +kernel⟩

def sAdd : State :=
  running false (bundle1 (opBits 0x03 [(16, 4, 4), (20, 4, 1), (24, 4, 2), (28, 32, 2 ^ 32 - 2)])) (withRegs [(1, 1), (2, 0)])
def cAdd : State :=
  running true (cbundle (opBits 0x03 [(16, 4, 4), (20, 4, 1), (24, 4, 1), (28, 32, 1)])) (withRegs [(1, 0xFFFFFFFFFFFFFFFF)])

/-- 1 + 0 - 2 wraps; the sum is modulo 2^64. -/
theorem test_ctl_add :
    (Issues sAdd 0 0 false 0 (launch false) (opOf sAdd) ∧ (opOf sAdd).code = 0x03) ∧
    (after (exec (.ctlAdd 0 0) sAdd)).x 0 0 4 = 2 ^ 64 - 1 := ⟨issues_of (by decide +kernel), by decide +kernel⟩

theorem test_c_add :
    (Issues cAdd 0 0 true 0 (launch true) (opOf cAdd) ∧ (opOf cAdd).code = 0x03) ∧
    (after (exec (.cAdd 0 0) cAdd)).x 0 0 4 = 2 ^ 64 - 1 := ⟨issues_of (by decide +kernel), by decide +kernel⟩

def sInfo (item : Nat) : State := running false (bundle1 (opBits 0x07 [(16, 4, 1), (20, 8, item)])) id
def cInfo : State := running true (cbundle (opBits 0x07 [(16, 4, 1), (20, 8, 7)])) id

/-- ITEM 0 is the width of A0, 5 the house number, 6 LAUNCH_ID, 8 SEQ_TABLE (Table 08-6). -/
theorem test_ctl_info :
    (Issues (sInfo 0) 0 0 false 0 (launch false) (opOf (sInfo 0)) ∧ (opOf (sInfo 0)).code = 0x07) ∧
    (after (exec (.ctlInfo 0 0) (sInfo 0))).x 0 0 1 = 64 ∧ (after (exec (.ctlInfo 0 0) (sInfo 5))).x 0 0 1 = 5 ∧
    (after (exec (.ctlInfo 0 0) (sInfo 6))).x 0 0 1 = 9 ∧ (after (exec (.ctlInfo 0 0) (sInfo 8))).x 0 0 1 = 0 :=
  ⟨issues_of (by decide +kernel), by decide +kernel⟩

theorem test_c_info :
    (Issues cInfo 0 0 true 0 (launch true) (opOf cInfo) ∧ (opOf cInfo).code = 0x07) ∧
    (after (exec (.cInfo 0 0) cInfo)).x 0 0 1 = 0 := ⟨issues_of (by decide +kernel), by decide +kernel⟩

def sLd : State :=
  { running false (bundle1 (opBits 0x04 [(16, 4, 2), (20, 4, 1), (24, 6, 63)])) (withRegs [(1, 0x1000)]) with
    mem := { Memory.reset with hbm := [(8, row (0xABCD <<< 4032))] } }

/-- Word 63 of the row at 0x1000 is written to x2 when the read completes; until then x2 is interlocked and keeps its value. -/
theorem test_ctl_ld :
    (Issues sLd 0 0 false 0 (launch false) (opOf sLd) ∧ (opOf sLd).code = 0x04) ∧
    decodeAddr (sLd.x 0 0 ((opOf sLd).f 20 4)) = some (.hbm 8) ∧ sLd.room (.hbm 8) ≠ 0 ∧ (Place.hbm 8).tier ≤ 2 ∧
    (let u := after (exec (.ctlLd 0 0) sLd)
     u.x 0 0 2 = 0 ∧ (u.tile 0).locked 0 = [2] ∧ (after (exec (.operationComplete 0 0) u)).x 0 0 2 = 0xABCD) :=
  ⟨issues_of (by decide +kernel), by decide +kernel⟩

def sNop : State := running false (bundle1 (opBits 0x00 done7)) id
def cNop : State := running true (cbundle (opBits 0x00 [])) id
def sEnd : State := running false (bundle1 (opBits 0x01 [])) (fun t => t.setList 0 { t.list 0 with slot := 2, fetched := 0x01 <<< 176 })
def cEnd : State := running true (cbundle (opBits 0x01 [])) id

theorem test_nop :
    (Issues sNop 0 0 false 0 (launch false) (opOf sNop) ∧ (opOf sNop).code = 0x00) ∧
    ((after (exec (.nop 0 0) sNop)).tile 0).signal 7 = 1 := ⟨issues_of (by decide +kernel), by decide +kernel⟩

theorem test_c_nop :
    (Issues cNop 0 0 true 0 (launch true) (opOf cNop) ∧ (opOf cNop).code = 0x00) ∧
    (((after (exec (.cNop 0 0) cNop)).tile 0).list 0).pc = 1 := ⟨issues_of (by decide +kernel), by decide +kernel⟩

theorem test_ctl_end :
    (Issues sEnd 0 0 false 0 (launch false) (opOf sEnd) ∧ (opOf sEnd).code = 0x01) ∧
    (((after (exec (.ctlEnd 0 0) sEnd)).tile 0).list 0).ended = true := ⟨issues_of (by decide +kernel), by decide +kernel⟩

theorem test_c_end :
    (Issues cEnd 0 0 true 0 (launch true) (opOf cEnd) ∧ (opOf cEnd).code = 0x01) ∧
    (((after (exec (.cEnd 0 0) cEnd)).tile 0).list 0).ended = true := ⟨issues_of (by decide +kernel), by decide +kernel⟩

/-- COND 2 is signed less than: -1 < 0. -/
def sBr (cond : Nat) : State :=
  running true (cbundle (opBits 0x05 [(16, 3, cond), (19, 4, 1), (23, 4, 0), (27, 16, 31)])) (withRegs [(1, 0xFFFFFFFFFFFFFFFF)])
def sBrN : State :=
  running false (bundle1 (opBits 0x05 [(16, 3, 5), (19, 4, 1), (23, 4, 0), (27, 16, 9)]))
    (fun t => t.setList 0 { t.list 0 with regs := [(1, 0xFFFFFFFFFFFFFFFF)] })

theorem test_c_br_taken :
    (Issues (sBr 2) 0 0 true 0 (launch true) (opOf (sBr 2)) ∧ (opOf (sBr 2)).code = 0x05) ∧
    ((opOf (sBr 2)).f 16 3 = 2 ∧ signed 64 ((sBr 2).x 0 0 1) < signed 64 ((sBr 2).x 0 0 0)) ∧
    (((after (exec (.cBr 0 0) (sBr 2))).tile 0).list 0).pc = 31 := ⟨issues_of (by decide +kernel), by decide +kernel⟩

theorem test_c_br_not_taken :
    (Issues (sBr 4) 0 0 true 0 (launch true) (opOf (sBr 4)) ∧ (opOf (sBr 4)).code = 0x05) ∧ (opOf (sBr 4)).f 16 3 ≤ 5 ∧
    ¬ (sBr 4).x 0 0 1 < (sBr 4).x 0 0 0 ∧
    (((after (exec (.cBr 0 0) (sBr 4))).tile 0).list 0).pc = 1 := ⟨issues_of (by decide +kernel), by decide +kernel⟩

/-- A native branch in the first slot waits for the rest of its bundle. -/
theorem test_ctl_br :
    (Issues sBrN 0 0 false 0 (launch false) (opOf sBrN) ∧ (opOf sBrN).code = 0x05) ∧
    (((after (exec (.ctlBr 0 0) sBrN)).tile 0).list 0).target = some 9 := ⟨issues_of (by decide +kernel), by decide +kernel⟩

def sJmp : State := running false (bundle1 (opBits 0x06 [(16, 16, 15)])) id
def cJmp : State := running true (cbundle (opBits 0x06 [(16, 16, 30)])) id

theorem test_ctl_jmp :
    (Issues sJmp 0 0 false 0 (launch false) (opOf sJmp) ∧ (opOf sJmp).code = 0x06) ∧
    (((after (exec (.ctlJmp 0 0) sJmp)).tile 0).list 0).target = some 15 := ⟨issues_of (by decide +kernel), by decide +kernel⟩

theorem test_c_jmp :
    (Issues cJmp 0 0 true 0 (launch true) (opOf cJmp) ∧ (opOf cJmp).code = 0x06) ∧
    (((after (exec (.cJmp 0 0) cJmp)).tile 0).list 0).pc = 30 := ⟨issues_of (by decide +kernel), by decide +kernel⟩

/-- The last slot of the last bundle of a program of one row. -/
def sRunOff : State := running false 0 (fun t => t.setList 0 { t.list 0 with pc := 15, slot := 2, fetched := 0 })

/-- A list whose issue runs past its program ends, with a BAD_PARAM entry (R189). -/
theorem test_run_off :
    (Issues sRunOff 0 0 false 0 (launch false) (opOf sRunOff) ∧ (opOf sRunOff).code = 0x00) ∧
    (opOf sRunOff).crec = false ∧ (opOf sRunOff).slot + 1 = ((opOf sRunOff).bundleOf (launch false)).slots.length ∧
    ((sRunOff.tile 0).list 0).target = none ∧ ((sRunOff.tile 0).list 0).ending = false ∧
    ((opOf sRunOff).bundleOf (launch false)).next ≥ progBundles false 1 ∧
    (((after (exec (.nop 0 0) sRunOff)).tile 0).list 0).ended = true ∧
    fld (Sparse.get 0 ((after (exec (.nop 0 0) sRunOff)).tile 0).rows 0x5801).toNat 24 8 = 0x13 :=
  ⟨issues_of (by decide +kernel), by decide +kernel⟩

def sSadd : State := running false (bundle1 (opBits 0x11 (done7 ++ [(16, 5, 31), (21, 32, 2 ^ 32 - 1)])))
  (fun t => { t with signals := [(31, 3)] })
def sSset : State := running false (bundle1 (opBits 0x12 (done7 ++ [(16, 5, 7), (21, 32, 40)]))) id
def cSadd : State := running true (cbundle (opBits 0x11 [(16, 5, 7), (21, 32, 40)])) id

/-- 3 - 1 modulo 2^32. -/
theorem test_sync_add :
    (Issues sSadd 0 0 false 0 (launch false) (opOf sSadd) ∧ (opOf sSadd).code = 0x11) ∧
    ((after (exec (.syncAdd 0 0) sSadd)).tile 0).signals = [(7, 1), (31, 2)] :=
  ⟨issues_of (by decide +kernel), by decide +kernel⟩

/-- DONE_SIG counts after the value is set. -/
theorem test_sync_set :
    (Issues sSset 0 0 false 0 (launch false) (opOf sSset) ∧ (opOf sSset).code = 0x12) ∧
    ((after (exec (.syncSet 0 0) sSset)).tile 0).signal 7 = 41 := ⟨issues_of (by decide +kernel), by decide +kernel⟩

/-- What earlier slots of the bundle added in the same step is added to the value that is set. -/
theorem test_sync_set_keeps_bumps :
    let s := sSset.updTile 0 (fun t => { t.setList 0 { t.list 0 with bumps := [(7, 2)] } with signals := [(7, 9)] })
    ((after (exec (.syncSet 0 0) s)).tile 0).signal 7 = 43 := by decide +kernel

theorem test_c_sadd :
    (Issues cSadd 0 0 true 0 (launch true) (opOf cSadd) ∧ (opOf cSadd).code = 0x11) ∧
    ((after (exec (.cSadd 0 0) cSadd)).tile 0).signal 7 = 40 := ⟨issues_of (by decide +kernel), by decide +kernel⟩

def sWait : State := running false (bundle1 (opBits 0x10 [(16, 5, 3), (21, 4, 2), (25, 32, 2)])) (withRegs [(2, 0xFFFFFFFF)])
def cWait : State := running true (cbundle (opBits 0x10 [(16, 5, 3), (21, 4, 0), (25, 32, 2)])) id

/-- IMM + xt modulo 2^32. -/
theorem test_sync_wait :
    (Issues sWait 0 0 false 0 (launch false) (opOf sWait) ∧ (opOf sWait).code = 0x10) ∧
    (((after (exec (.syncWait 0 0) sWait)).tile 0).list 0).waiting = [(0, 3, 1)] :=
  ⟨issues_of (by decide +kernel), by decide +kernel⟩

theorem test_c_wait :
    (Issues cWait 0 0 true 0 (launch true) (opOf cWait) ∧ (opOf cWait).code = 0x10) ∧
    (((after (exec (.cWait 0 0) cWait)).tile 0).list 0).waiting = [(0, 3, 2)] :=
  ⟨issues_of (by decide +kernel), by decide +kernel⟩

/-- A wait for 1 on signal 3, held while the signal is `e`. -/
def sHeld (e : Nat) : State :=
  let u := after (exec (.syncWait 0 0) sWait)
  u.updTile 0 (fun t => { t with signals := Sparse.set 0 [] 3 e })

def held : Flight :=
  { list := 0, bundle := 0, slot := 0, opcode := 0x10, doneSig := none, crec := false, status := 0, detail := 0, res0 := 0,
    res1 := 0, units := [], regs := [], tiles := [], groups := [], closes := [], writes := [], record := none, emits := none,
    rows := 0, wide := false, held := true }

/-- 0 - 1 is 2^32 - 1, not reached; 1 - 1 is reached. -/
theorem test_sync_wait_release :
    (sHeld 0).phys 0 = some 0 ∧ (∀ w ∈ (((sHeld 0).tile 0).list 0).waiting, ¬ (((sHeld 0).tile 0).signal w.2.1 + 2 ^ 32 - w.2.2 % 2 ^ 32) % 2 ^ 32 < 2 ^ 31) ∧
    (((sHeld 1).tile 0).list 0).waiting[0]? = some (0, 3, 1) ∧ (((sHeld 1).tile 0).signal 3 + 2 ^ 32 - 1 % 2 ^ 32) % 2 ^ 32 < 2 ^ 31 ∧
    ((sHeld 1).tile 0).flights.find? (fun f => f.waits 0 0) = some held ∧ held.tiles = [] ∧
    ((sHeld 1).tile 0).cleanAt 0x5801 = true ∧
    (((after (exec (.syncWaitRelease 0 0) (sHeld 0))).tile 0).list 0).waiting = [(0, 3, 1)] ∧
    (((after (exec (.syncWaitRelease 0 0) (sHeld 1))).tile 0).list 0).waiting = [] := by decide +kernel

/-- Two waits in one bundle: the one whose condition is met first ends alone, and both conditions are awaited (R178). -/
theorem test_two_waits :
    let s : State := running false 0 (fun t => { t.setList 0 { t.list 0 with waiting := [(0, 3, 1), (1, 4, 1)] } with
      signals := [(4, 1)], flights := [held, { held with slot := 1 }] })
    let u := after (exec (.syncWaitRelease 0 0) s)
    ((u.tile 0).list 0).waiting = [(0, 3, 1)] ∧ (u.tile 0).flights = [held] := by decide +kernel

/-- The list waits in the last bundle of its program, which ends with the wait. -/
def sHeldLast : State := (sHeld 1).updTile 0 (fun t => t.setList 0 { t.list 0 with slot := 0, pc := 16 })

theorem test_wait_runs_off :
    (let x := (sHeldLast.tile 0).list 0
     x.slot = 0 ∧ x.ended = false ∧ x.waiting = [(0, 3, 1)] ∧ (sHeldLast.tile 0).launch = some (launch false) ∧
     (launch false).stopping = none ∧ progBundles false 1 ≤ x.pc) ∧
    (let u := after (exec (.syncWaitRelease 0 0) sHeldLast)
     ((u.tile 0).list 0).ended = true ∧ (u.tile 0).launch.map (fun la => (la.entries, la.rejects)) = some (1, 1)) := by
  decide +kernel

/-- While a wait of its last bundle holds a list, it has not run off (R178, R189). -/
theorem test_wait_holds_end :
    let s := sRunOff.updTile 0 (fun t => t.setList 0 { t.list 0 with waiting := [(0, 3, 1)] })
    let u := after (exec (.nop 0 0) s)
    ((u.tile 0).list 0).ended = false ∧ (u.tile 0).launch = some (launch false) ∧ ((u.tile 0).list 0).pc = 16 := by
  decide +kernel

/-! ### Completion, ramps and the end of a launch -/

def flight : Flight := { held with opcode := 0x40, held := false, units := [.vec], doneSig := some 4 }
def sFlight : State := running false 0 (fun t => { t with flights := [flight] })

theorem test_operation_complete :
    sFlight.phys 0 = some 0 ∧ (sFlight.tile 0).flights[0]? = some flight ∧
    (sFlight.tile 0).canComplete 0 flight = true ∧ flight.tiles = [] ∧ flight.crec = false ∧ flight.status = stOk ∧
    ((after (exec (.operationComplete 0 0) sFlight)).tile 0).flights = [] ∧
    ((after (exec (.operationComplete 0 0) sFlight)).tile 0).signal 4 = 1 := by decide +kernel

/-- A disp.run of tiles 0 and 1 counts its signal at both, once each (R177). -/
theorem test_operation_complete_tiles :
    let f : Flight := { flight with opcode := 0x39, units := [.conc], tiles := [0, 1] }
    let s := running false 0 (fun t => { t with flights := [f] })
    (s.tile 0).flights[0]? = some f ∧ (s.tile 0).canComplete 0 f = true ∧ f.tiles ≠ [] ∧ s.phys 1 = some 1 ∧
    ((after (exec (.operationComplete 0 0) s)).tile 0).signal 4 = 1 ∧
    ((after (exec (.operationComplete 0 0) s)).tile 1).signal 4 = 1 := by decide +kernel

/-- Level 8 ends active, level 0 ends idle (R53). -/
theorem test_ramp :
    let s (r : Ramp) : State := { device with tiles := [(0, { Tile.reset with ramps := [(3, r)] })] }
    (s (.up 8)).phys 0 = some 0 ∧ ((s (.up 8)).tile 0).ramp 3 = .up 8 ∧
    ((after (exec (.rampPhaseEnd 0 3) (s (.up 8)))).tile 0).ramp 3 = .active ∧
    ((after (exec (.rampPhaseEnd 0 3) (s (.up 1)))).tile 0).ramp 3 = .up 2 ∧
    ((after (exec (.rampPhaseEnd 0 3) (s (.down 7)))).tile 0).ramp 3 = .down 6 ∧
    ((after (exec (.rampPhaseEnd 0 3) (s (.down 0)))).tile 0).ramp 3 = .idle := by decide +kernel

def sOver : State := running false 0 (fun t => t.setList 0 { t.list 0 with ended := true })

theorem test_launch_end :
    sOver.phys 0 = some 0 ∧ (sOver.tile 0).launch = some (launch false) ∧ (sOver.tile 0).launchOver (launch false) = true ∧
    ((after (exec (.launchEnd 0) sOver)).tile 0).launch = none ∧
    (let x := (Sparse.get 0 ((after (exec (.launchEnd 0) sOver)).tile 0).rows 0x5800).toNat
     fld x 0 32 = 9 ∧ fld x 32 32 = 0 ∧ fld x 128 16 = 0xFFFF ∧ fld x 152 8 = 0 ∧ crcOk64 x = true) := by decide +kernel

end Sys2Proof.Tests
end

