-- ==== Sys2Proof/Tests/Vectors.lean ====
section
/-! SUPPORT. Vector operations (Table 08-10): states that meet the hypotheses of the statements, with values by hand. -/

namespace Sys2Proof.Tests
open Sys2Proof.Machine
set_option Elab.async false

/-- A vector operation on TYPE `ty`, with VD 1, VA 2, VB 3 and further fields. -/
def vecOp (code ty : Nat) (fs : List (Nat × Nat × Nat)) : Nat :=
  opBits code ([(16, 2, ty), (18, 5, 1), (23, 5, 2), (28, 5, 3)] ++ fs)

def vecs (d a b : Nat) (t : Tile) : Tile := { t with vregs := Sparse.set 0 (Sparse.set 0 (Sparse.set 0 [] 1 (row d)) 2 (row a)) 3 (row b) }

def sVec (code ty d a b : Nat) (fs : List (Nat × Nat × Nat)) : State :=
  running false (bundle1 (vecOp code ty fs)) (vecs d a b)
def cVec (code ty d a b : Nat) (fs : List (Nat × Nat × Nat)) : State :=
  running true (cbundle (vecOp code ty fs)) (vecs d a b)

/-- Element 0 of VD afterwards, and the operation issues next. -/
def vecGives (i : Instr) (s : State) (w : Nat) (v : Nat) : Bool :=
  elem w (((after (exec i s)).tile 0).vreg 1) 0 == v

theorem test_vec_add :
    (Issues (sVec 0x42 1 0 5 (2 ^ 64 - 2) []) 0 0 false 0 (launch false) (opOf (sVec 0x42 1 0 5 (2 ^ 64 - 2) [])) ∧
      (opOf (sVec 0x42 1 0 5 (2 ^ 64 - 2) [])).code = 0x42) ∧
    vecGives (.vecAdd 0 0) (sVec 0x42 1 0 5 (2 ^ 64 - 2) []) 64 3 = true ∧
    vecGives (.vecAdd 0 0) (sVec 0x42 0 0 0x3F800000 0x40000000 []) 32 0x40400000 = true :=
  ⟨issues_of (by decide +kernel), by decide +kernel⟩

theorem test_vec_sub :
    (Issues (sVec 0x43 1 0 5 7 []) 0 0 false 0 (launch false) (opOf (sVec 0x43 1 0 5 7 [])) ∧
      (opOf (sVec 0x43 1 0 5 7 [])).code = 0x43) ∧
    vecGives (.vecSub 0 0) (sVec 0x43 1 0 5 7 []) 64 (2 ^ 64 - 2) = true :=
  ⟨issues_of (by decide +kernel), by decide +kernel⟩

/-- 2 * 3 in BF16. -/
theorem test_vec_mul :
    (Issues (sVec 0x44 2 0 0x4000 0x4040 []) 0 0 false 0 (launch false) (opOf (sVec 0x44 2 0 0x4000 0x4040 [])) ∧
      (opOf (sVec 0x44 2 0 0x4000 0x4040 [])).code = 0x44) ∧
    vecGives (.vecMul 0 0) (sVec 0x44 2 0 0x4000 0x4040 []) 16 0x40C0 = true :=
  ⟨issues_of (by decide +kernel), by decide +kernel⟩

/-- 2 * 3 + 1. -/
theorem test_vec_fma :
    (Issues (sVec 0x45 0 0x3F800000 0x40000000 0x40400000 []) 0 0 false 0 (launch false)
        (opOf (sVec 0x45 0 0x3F800000 0x40000000 0x40400000 [])) ∧
      (opOf (sVec 0x45 0 0x3F800000 0x40000000 0x40400000 [])).code = 0x45) ∧
    vecGives (.vecFma 0 0) (sVec 0x45 0 0x3F800000 0x40000000 0x40400000 []) 32 0x40E00000 = true :=
  ⟨issues_of (by decide +kernel), by decide +kernel⟩

/-- The maximum of -0 and +0 is +0; FX64 compares as signed integers (R437). -/
theorem test_vec_max :
    (Issues (sVec 0x46 0 0 0x80000000 0 []) 0 0 false 0 (launch false) (opOf (sVec 0x46 0 0 0x80000000 0 [])) ∧
      (opOf (sVec 0x46 0 0 0x80000000 0 [])).code = 0x46) ∧
    vecGives (.vecMax 0 0) (sVec 0x46 0 0 0x80000000 0 []) 32 0 = true ∧
    vecGives (.vecMax 0 0) (sVec 0x46 1 0 (2 ^ 64 - 1) 1 []) 64 1 = true :=
  ⟨issues_of (by decide +kernel), by decide +kernel⟩

theorem test_vec_min :
    (Issues (sVec 0x47 0 0 0 0x80000000 []) 0 0 false 0 (launch false) (opOf (sVec 0x47 0 0 0 0x80000000 [])) ∧
      (opOf (sVec 0x47 0 0 0 0x80000000 [])).code = 0x47) ∧
    vecGives (.vecMin 0 0) (sVec 0x47 0 0 0 0x80000000 []) 32 0x80000000 = true :=
  ⟨issues_of (by decide +kernel), by decide +kernel⟩

/-- Any non-zero pattern of VM selects va. -/
theorem test_vec_sel :
    (Issues (sVec 0x49 0 0 8 9 [(33, 5, 1)]) 0 0 false 0 (launch false) (opOf (sVec 0x49 0 0 8 9 [(33, 5, 1)])) ∧
      (opOf (sVec 0x49 0 0 8 9 [(33, 5, 1)])).code = 0x49) ∧
    vecGives (.vecSel 0 0) (sVec 0x49 0 0 8 9 [(33, 5, 1)]) 32 9 = true ∧
    vecGives (.vecSel 0 0) (sVec 0x49 0 0x80000000 8 9 [(33, 5, 1)]) 32 8 = true :=
  ⟨issues_of (by decide +kernel), by decide +kernel⟩

/-- +0 equals -0; a NaN meets ne only (R437). -/
theorem test_vec_cmp :
    (Issues (sVec 0x48 0 0 0 0x80000000 []) 0 0 false 0 (launch false) (opOf (sVec 0x48 0 0 0 0x80000000 [])) ∧
      (opOf (sVec 0x48 0 0 0 0x80000000 [])).code = 0x48) ∧ (opOf (sVec 0x48 0 0 0 0x80000000 [])).f 33 3 ≤ 5 ∧
    vecGives (.vecCmp 0 0) (sVec 0x48 0 0 0 0x80000000 []) 32 0xFFFFFFFF = true ∧
    vecGives (.vecCmp 0 0) (sVec 0x48 0 0 0x7FC00000 0 [(33, 3, 1)]) 32 0xFFFFFFFF = true ∧
    vecGives (.vecCmp 0 0) (sVec 0x48 0 0 0x7FC00000 0 [(33, 3, 5)]) 32 0 = true :=
  ⟨issues_of (by decide +kernel), by decide +kernel⟩

theorem test_c_vec :
    (Issues (cVec 0x42 0 0 0x3F800000 0x40000000 []) 0 0 true 0 (launch true) (opOf (cVec 0x42 0 0 0x3F800000 0x40000000 [])) ∧
      (opOf (cVec 0x42 0 0 0x3F800000 0x40000000 [])).code = 0x42) ∧
    vecGives (.cVec 0 0) (cVec 0x42 0 0 0x3F800000 0x40000000 []) 32 0x40400000 = true :=
  ⟨issues_of (by decide +kernel), by decide +kernel⟩

/-- Query x1 + 0 against key x2 + 0: 3 exceeds 2. Element 32 has query 3, which 3 does not exceed. -/
def sMask : State :=
  running false (bundle1 (vecOp 0x50 0 [(33, 4, 1), (37, 4, 2)])) (fun t =>
    withRegs [(1, 2), (2, 3)] (vecs (0x11 + 0x22 <<< 1024) 0 0 t))

theorem test_vec_cmask :
    (Issues sMask 0 0 false 0 (launch false) (opOf sMask) ∧ (opOf sMask).code = 0x50) ∧
    ((opOf sMask).vtype = 0 ∨ (opOf sMask).vtype = 2) ∧
    vecGives (.vecCmask 0 0) sMask 32 0xFF800000 = true ∧
    elem 32 (((after (exec (.vecCmask 0 0) sMask)).tile 0).vreg 1) 32 = 0x22 :=
  ⟨issues_of (by decide +kernel), by decide +kernel⟩

/-- e^0, 1/2 and 1/sqrt 4. -/
theorem test_vec_exp :
    (Issues (sVec 0x4A 0 0 0 0 []) 0 0 false 0 (launch false) (opOf (sVec 0x4A 0 0 0 0 [])) ∧
      (opOf (sVec 0x4A 0 0 0 0 [])).code = 0x4A) ∧ (opOf (sVec 0x4A 0 0 0 0 [])).vtype ≤ 2 ∧
    vecGives (.vecExp 0 0) (sVec 0x4A 0 0 0 0 []) 32 0x3F800000 = true :=
  ⟨issues_of (by decide +kernel), by decide +kernel⟩

theorem test_vec_rcp :
    (Issues (sVec 0x4B 0 0 0x40000000 0 []) 0 0 false 0 (launch false) (opOf (sVec 0x4B 0 0 0x40000000 0 [])) ∧
      (opOf (sVec 0x4B 0 0 0x40000000 0 [])).code = 0x4B) ∧
    vecGives (.vecRcp 0 0) (sVec 0x4B 0 0 0x40000000 0 []) 32 0x3F000000 = true :=
  ⟨issues_of (by decide +kernel), by decide +kernel⟩

theorem test_vec_rsq :
    (Issues (sVec 0x4C 0 0 0x40800000 0 []) 0 0 false 0 (launch false) (opOf (sVec 0x4C 0 0 0x40800000 0 [])) ∧
      (opOf (sVec 0x4C 0 0 0x40800000 0 [])).code = 0x4C) ∧
    vecGives (.vecRsq 0 0) (sVec 0x4C 0 0 0x40800000 0 []) 32 0x3F000000 = true :=
  ⟨issues_of (by decide +kernel), by decide +kernel⟩

/-- Two elements 3 and 4 among zeros. -/
theorem test_vec_rsum :
    (Issues (sVec 0x4D 1 9 (3 + 4 <<< 4032) 0 []) 0 0 false 0 (launch false) (opOf (sVec 0x4D 1 9 (3 + 4 <<< 4032) 0 [])) ∧
      (opOf (sVec 0x4D 1 9 (3 + 4 <<< 4032) 0 [])).code = 0x4D) ∧
    vecGives (.vecRsum 0 0) (sVec 0x4D 1 9 (3 + 4 <<< 4032) 0 []) 64 7 = true :=
  ⟨issues_of (by decide +kernel), by decide +kernel⟩

theorem test_vec_rmax :
    (Issues (sVec 0x4E 1 9 (3 + 4 <<< 4032) 0 []) 0 0 false 0 (launch false) (opOf (sVec 0x4E 1 9 (3 + 4 <<< 4032) 0 [])) ∧
      (opOf (sVec 0x4E 1 9 (3 + 4 <<< 4032) 0 [])).code = 0x4E) ∧
    vecGives (.vecRmax 0 0) (sVec 0x4E 1 9 (3 + 4 <<< 4032) 0 []) 64 4 = true :=
  ⟨issues_of (by decide +kernel), by decide +kernel⟩

/-- Element 127, the last of FP32. -/
theorem test_vec_bcast :
    (Issues (sVec 0x4F 0 0 (6 <<< 4064) 0 [(33, 8, 127)]) 0 0 false 0 (launch false)
        (opOf (sVec 0x4F 0 0 (6 <<< 4064) 0 [(33, 8, 127)])) ∧
      (opOf (sVec 0x4F 0 0 (6 <<< 4064) 0 [(33, 8, 127)])).code = 0x4F) ∧
    (opOf (sVec 0x4F 0 0 (6 <<< 4064) 0 [(33, 8, 127)])).f 33 8 <
      typeElems (opOf (sVec 0x4F 0 0 (6 <<< 4064) 0 [(33, 8, 127)])).vtype ∧
    vecGives (.vecBcast 0 0) (sVec 0x4F 0 0 (6 <<< 4064) 0 [(33, 8, 127)]) 32 6 = true :=
  ⟨issues_of (by decide +kernel), by decide +kernel⟩

def sVecLd : State := running false (bundle1 (vecOp 0x40 0 [(33, 16, 0x5FFF)])) (fun t =>
  { t with rows := t.rows ++ [(0x5FFF, 77)] })
def sVecSt (r : Nat) : State := running false (bundle1 (vecOp 0x41 0 [(33, 16, r)])) (vecs 0 77 0)

theorem test_vec_ld :
    (Issues sVecLd 0 0 false 0 (launch false) (opOf sVecLd) ∧ (opOf sVecLd).code = 0x40) ∧
    (opOf sVecLd).ix 33 16 = some 0x5FFF ∧ rowExists 0x5FFF = true ∧
    (sVecLd.tile 0).faultsAt (bankOf 0x5FFF).1 (bankOf 0x5FFF).2 = [] ∧
    vecGives (.vecLd 0 0) sVecLd 32 77 = true := ⟨issues_of (by decide +kernel), by decide +kernel⟩

/-- A program row keeps its contents (R163). -/
theorem test_vec_st :
    (Issues (sVecSt 0) 0 0 false 0 (launch false) (opOf (sVecSt 0)) ∧ (opOf (sVecSt 0)).code = 0x41) ∧
    (opOf (sVecSt 0)).ix 33 16 = some 0 ∧ rowExists 0 = true ∧
    Sparse.get 0 ((after (exec (.vecSt 0 0) (sVecSt 0))).tile 0).rows 0 = 77 ∧
    Sparse.get 0 ((after (exec (.vecSt 0 0) (sVecSt 0x5000))).tile 0).rows 0x5000 =
      Sparse.get 0 ((sVecSt 0x5000).tile 0).rows 0x5000 := ⟨issues_of (by decide +kernel), by decide +kernel⟩

/-- An operation of two slots stands in the second slot of a bundle of LAYOUT 1. -/
def running2 (x : Nat) (f : Tile → Tile) : State :=
  running false 0 (fun t => f (t.setList 0 { t.list 0 with slot := 1, fetched := bundle2 x }))

/-- FX64 of anchor 0 to FP32, part 1: the 64 elements go to bytes 256-511 (R438). -/
def sCvt : State := running2 (vecOp 0x51 1 [(33, 4, 9), (139, 3, 1)]) (vecs 9 3 0)
/-- FP32 to FP32. -/
def sCvtSame : State := running2 (vecOp 0x51 0 [(33, 4, 9)]) (vecs 9 0x40400000 0)

theorem test_vec_cvt_part :
    (Issues sCvt 0 0 false 0 (launch false) (opOf sCvt) ∧ (opOf sCvt).code = 0x51) ∧ (opOf sCvt).vtype ≤ 2 ∧
    (opOf sCvt).f 37 2 ≤ 1 ∧ isOutputFmt ((opOf sCvt).f 33 4) = true ∧
    fmtBytes ((opOf sCvt).f 33 4) < typeBytes (opOf sCvt).vtype ∧ vecGives (.vecCvt 0 0) sCvt 32 9 = true ∧
    elem 32 (((after (exec (.vecCvt 0 0) sCvt)).tile 0).vreg 1) 64 = 0x40400000 :=
  ⟨issues_of (by decide +kernel), by decide +kernel⟩

theorem test_vec_cvt_same :
    (Issues sCvtSame 0 0 false 0 (launch false) (opOf sCvtSame) ∧ (opOf sCvtSame).code = 0x51) ∧
    (opOf sCvtSame).f 33 4 ≠ 10 ∧ fmtBytes ((opOf sCvtSame).f 33 4) = typeBytes (opOf sCvtSame).vtype ∧
    vecGives (.vecCvt 0 0) sCvtSame 32 0x40400000 = true := ⟨issues_of (by decide +kernel), by decide +kernel⟩

def sRand : State := running2 (vecOp 0x52 0 [(33, 4, 1), (37, 32, 5), (69, 32, 2)]) (withRegs [(1, 0xFFFFFFFFFFFFFFFF)])

theorem test_vec_rand : Issues sRand 0 0 false 0 (launch false) (opOf sRand) ∧ (opOf sRand).code = 0x52 :=
  issues_of (by decide +kernel)

/-- SRC_ROW 0x10, ROWS 1, destination row 0x20. -/
def sJoin (ty anchorS : Nat) (n : Nat) : State :=
  running2 (vecOp 0x53 ty [(33, 16, 0x10), (49, 16, n), (65, 16, anchorS), (98, 16, 0x20)]) (fun t =>
    { t with rows := [(0x10, 0x3F800000), (0x20, 0x40000000)] ++ t.rows })

theorem test_vec_join :
    (Issues (sJoin 0 0 1) 0 0 false 0 (launch false) (opOf (sJoin 0 0 1)) ∧ (opOf (sJoin 0 0 1)).code = 0x53) ∧
    (opOf (sJoin 0 0 1)).vtype ≤ 1 ∧ (opOf (sJoin 0 0 1)).ix 33 16 = some 0x10 ∧ bit (opOf (sJoin 0 0 1)).bits 97 = false ∧
    (opOf (sJoin 0 0 1)).ix 98 16 = some 0x20 ∧ (opOf (sJoin 0 0 1)).vtype ≠ 1 ∧ rowRoom 0x10 ≠ 0 ∧
    (opOf (sJoin 0 0 1)).f 49 16 ≤ rowRoom 0x10 ∧ (opOf (sJoin 0 0 1)).f 49 16 ≤ rowRoom 0x20 ∧
    extentsMeet 0x10 1 1 0x20 1 1 = false ∧ extentsMeet 0x20 1 1 0x5000 1 1 = false ∧
    extentsMeet 0x20 1 1 0x5800 2 1 = false ∧ ((sJoin 0 0 1).tile 0).banks = [] ∧
    elem 32 (Sparse.get 0 ((after (exec (.vecJoin 0 0) (sJoin 0 0 1))).tile 0).rows 0x20).toNat 0 = 0x40400000 :=
  ⟨issues_of (by decide +kernel), by decide +kernel⟩

/-- Unequal anchors reject an FX64 join. -/
theorem test_vec_join_anchors :
    (Issues (sJoin 1 1 1) 0 0 false 0 (launch false) (opOf (sJoin 1 1 1)) ∧ (opOf (sJoin 1 1 1)).code = 0x53) ∧
    (opOf (sJoin 1 1 1)).vtype = 1 ∧ (opOf (sJoin 1 1 1)).f 65 16 ≠ (opOf (sJoin 1 1 1)).f 81 16 ∧
    ((after (exec (.vecJoin 0 0) (sJoin 1 1 1))).tile 0).flights = [] :=
  ⟨issues_of (by decide +kernel), by decide +kernel⟩

end Sys2Proof.Tests
end

