-- ==== Sys2Proof/Tests/Products.lean ====
section
/-! SUPPORT. Groups, products, bitmaps, merge and dispatch: states that meet the hypotheses of the statements, with values
by hand. -/

namespace Sys2Proof.Tests
open Sys2Proof.Machine
set_option Elab.async false

/-! ### Groups -/

/-- A group block (Table 08-5) at bit 111: group 3, one row of 8 columns at base `base`. -/
def groupBlock (base fmt : Nat) (fs : List (Nat × Nat × Nat)) : List (Nat × Nat × Nat) :=
  [(111, 5, 3), (116, 1, 1), (118, 2, fmt), (120, 9, base), (129, 15, 1), (144, 10, 8)] ++ fs

/-- acc.open on A1. -/
def sOpen (base fmt : Nat) (fs : List (Nat × Nat × Nat)) (rows : Sparse Row) : State :=
  running false (bundle3 (opBits 0x28 ([(16, 2, 1)] ++ groupBlock base fmt fs))) (fun t => { t with rows := rows ++ t.rows })

/-- FP32 with a bias row: the one row of the group takes the bias of each column. -/
def sOpenBias : State := sOpen 511 1 [(166, 1, 1), (167, 16, 0x30)] [(0x30, 0x3F800000)]
/-- FX64 with its anchor in a row. -/
def sOpenAnchor : State := sOpen 0 2 [(154, 2, 2), (208, 16, 0x31), (117, 1, 1)] [(0x31, 0xFFF0)]

theorem test_acc_open_bias :
    (Issues sOpenBias 0 0 false 0 (launch false) (opOf sOpenBias) ∧ (opOf sOpenBias).code = 0x28) ∧
    openCheck (sOpenBias.tile 0) 1 ((opOf sOpenBias).group 111) none = 0 ∧ (sOpenBias.tile 0).banks = [] ∧
    ((opOf sOpenBias).group 111).mode = false ∧ ((opOf sOpenBias).group 111).biasRow = some 0x30 ∧
    (readRow (after (exec (.accOpen 0 0) sOpenBias)) 0 (accRow 1 511)).2 = 0x3F800000 :=
  ⟨issues_of (by decide +kernel), by decide +kernel⟩

theorem test_acc_open_anchor :
    (Issues sOpenAnchor 0 0 false 0 (launch false) (opOf sOpenAnchor) ∧ (opOf sOpenAnchor).code = 0x28) ∧
    openCheck (sOpenAnchor.tile 0) 1 ((opOf sOpenAnchor).group 111) none = 0 ∧
    ((opOf sOpenAnchor).group 111).src = 2 ∧ ((opOf sOpenAnchor).group 111).anchorRow = some 0x31 ∧
    (((after (exec (.accOpen 0 0) sOpenAnchor)).tile 0).group 1 3).anchor = -16 :=
  ⟨issues_of (by decide +kernel), by decide +kernel⟩

/-- A base past the store: two rows from 511. -/
def sOpenBad : State := running false (bundle3 (opBits 0x28 [(16, 2, 1), (111, 5, 3), (116, 1, 1), (118, 2, 1), (120, 9, 511),
  (129, 15, 32), (144, 10, 8)])) id

theorem test_acc_open_refused :
    (Issues sOpenBad 0 0 false 0 (launch false) (opOf sOpenBad) ∧ (opOf sOpenBad).code = 0x28) ∧
    openCheck (sOpenBad.tile 0) 1 ((opOf sOpenBad).group 111) none ≠ 0 ∧ sOpenBad.boot.phase = 5 ∧
    sOpenBad.counter 0x0A01 0 < 2 ^ 48 - 1 ∧ (after (exec (.accOpen 0 0) sOpenBad)).counter 0x0A01 0 = 1 ∧
    fld (Sparse.get 0 ((after (exec (.accOpen 0 0) sOpenBad)).tile 0).rows 0x5801).toNat 24 8 = 0x14 :=
  ⟨issues_of (by decide +kernel), by decide +kernel⟩

def group3 (fmt : Nat) : Group :=
  { Group.reset with isOpen := true, fmt := fmt, base := 4, grows := 1, gcols := 8, positions := 2, owner := some 0 }

/-- acc.close of group 3 of A1 to FP8 E4M3 (OUTFMT 0), or as FX64, from row 0x40 on. -/
def sClose (fmt outfmt : Nat) : State :=
  running2 (opBits 0x29 [(16, 2, 1), (18, 5, 3), (23, 4, outfmt), (29, 16, 0x40)]) (fun t =>
    { t.setGroup 1 3 (group3 fmt) with rows := t.rows ++ [(0x8204, row (0x3F800000 + 0xC0000000 <<< 32))] })

/-- 1.0 and -2.0 are 0x38 and 0xC0 in E4M3; an FX64 element is delivered unchanged. -/
theorem test_acc_close :
    (Issues (sClose 1 0) 0 0 false 0 (launch false) (opOf (sClose 1 0)) ∧ (opOf (sClose 1 0)).code = 0x29) ∧
    ((sClose 1 0).tile 0).group 1 3 = group3 1 ∧ (opOf (sClose 1 0)).f 27 2 ≤ 2 ∧ (sClose 1 0).x 0 0 15 = 0 ∧
    closeFmtOk 1 0 = true ∧ (opOf (sClose 1 0)).ix 29 16 = some 0x40 ∧ ((sClose 1 0).tile 0).banks = [] ∧
    extentsMeet 0x40 1 1 0x5000 1 1 = false ∧ extentsMeet 0x40 1 1 0x5800 2 1 = false ∧
    Sparse.get 0 ((after (exec (.accClose 0 0) (sClose 1 0))).tile 0).rows 0x40 = 0xC038 ∧
    ((after (exec (.accClose 0 0) (sClose 1 0))).tile 0).group 1 3 = Group.reset :=
  ⟨issues_of (by decide +kernel), by decide +kernel⟩

theorem test_acc_close_raw :
    (Issues (sClose 2 10) 0 0 false 0 (launch false) (opOf (sClose 2 10)) ∧ (opOf (sClose 2 10)).code = 0x29) ∧
    closeFmtOk 2 10 = true ∧
    Sparse.get 0 ((after (exec (.accClose 0 0) (sClose 2 10))).tile 0).rows 0x40 = 0xC00000003F800000 :=
  ⟨issues_of (by decide +kernel), by decide +kernel⟩

def sRec : State := running false (bundle1 (opBits 0x2A [(16, 2, 1), (18, 16, 0x5FFF)])) (fun t => t.setGroup 1 3 (group3 1))

/-- A record says OPEN, ACCFMT, base, rows, columns and POSITIONS (Table 07-4); the row is written at the completion point. -/
theorem test_acc_rec :
    (Issues sRec 0 0 false 0 (launch false) (opOf sRec) ∧ (opOf sRec).code = 0x2A) ∧
    (opOf sRec).ix 18 16 = some 0x5FFF ∧ rowExists 0x5FFF = true ∧ (sRec.tile 0).progRow 0x5FFF = false ∧
    (let u := after (exec (.accRec 0 0) sRec)
     let e := elem 128 (Sparse.get 0 ((after (exec (.operationComplete 0 0) u)).tile 0).rows 0x5FFF).toNat 3
     ((u.tile 0).flights.map (fun f => f.record.map (fun x => (x.1, elem 128 x.2.toNat 3)))) = [some (0x5FFF, e)] ∧
     Sparse.get 0 (u.tile 0).rows 0x5FFF = 0 ∧ fld e 0 1 = 1 ∧ fld e 2 2 = 1 ∧ fld e 16 15 = 1 ∧ fld e 32 10 = 8 ∧ fld e 96 32 = 2) :=
  ⟨issues_of (by decide +kernel), by decide +kernel⟩

/-- acc.adopt of record 31 of row 0x50 as group 3 of A1 at base 9. -/
def record31 : Nat := pack [(0, 1, 1), (2, 2, 1), (16, 15, 1), (32, 10, 8), (96, 32, 6)]
def sAdopt : State :=
  running false (bundle1 (opBits 0x2B [(16, 2, 1), (18, 5, 3), (23, 16, 0x50), (39, 5, 31), (44, 9, 9)])) (fun t =>
    { t with rows := [(0x50, row (record31 <<< 3968))] ++ t.rows })

theorem test_acc_adopt :
    (Issues sAdopt 0 0 false 0 (launch false) (opOf sAdopt) ∧ (opOf sAdopt).code = 0x2B) ∧
    (opOf sAdopt).ix 23 16 = some 0x50 ∧ rowExists 0x50 = true ∧ (sAdopt.tile 0).cleanAt 0x50 = true ∧
    (adoptFields 3 9 (elem 128 (readRow sAdopt 0 0x50).2.toNat 31)).isSome = true ∧
    (adoptFields 3 9 (elem 128 (readRow sAdopt 0 0x50).2.toNat 31)).all
      (fun e => openCheck (sAdopt.tile 0) 1 e.1 none == 0 && e.2.2 == 6) = true ∧
    ((after (exec (.accAdopt 0 0) sAdopt)).tile 0).group 1 3 =
      { group3 1 with mode := true, base := 9, positions := 6 } := ⟨issues_of (by decide +kernel), by decide +kernel⟩

/-! ### Products -/

/-- arr.mm of a 1 x 1 activation and 8 columns of weights in BF16, added to the open group 3 of A1. -/
def sMm : State :=
  running false (bundle3 (opBits 0x20 [(16, 4, 2), (22, 4, 6), (26, 4, 6), (30, 15, 1), (45, 24, 1), (69, 10, 8),
    (79, 16, 0x60), (95, 16, 0x70), (111, 5, 3)])) (fun t =>
    { t.setGroup 1 3 (group3 1) with rows := [(0x60, 0x4000), (0x70, 0x4040)] ++ t.rows ++ [(0x8204, 0x3F800000)] })

/-- 1 + 2 * 3, POSITIONS 2 + 1. -/
theorem test_arr_mm :
    (Issues sMm 0 0 false 0 (launch false) (opOf sMm) ∧ (opOf sMm).code = 0x20) ∧
    (opArrMm 0 (opOf sMm) sMm).status = stOk ∧ (opOf sMm).ix 79 16 = some 0x60 ∧ (opOf sMm).ix 95 16 = some 0x70 ∧
    ((opOf sMm).group 111).rowOff = some 0 ∧ ((opOf sMm).group 111).opens = false ∧ (sMm.tile 0).banks = [] ∧
    (∀ a ∈ setBits 4 ((opOf sMm).f 16 4), let g := (sMm.tile 0).group a 3
      g.base + g.rows ≤ 512 ∧ g.fmt ≤ 2 ∧ 0 < sMm.width 0 a) ∧
    elem 32 (readRow (after (exec (.arrMm 0 0) sMm)) 0 0x8204).2.toNat 0 = 0x40E00000 ∧
    (((after (exec (.arrMm 0 0) sMm)).tile 0).group 1 3).positions = 3 :=
  ⟨issues_of (by decide +kernel), by decide +kernel⟩

/-- The same product by sp.mm with both operands dense, opening its group. -/
def sSp : State :=
  let x := opBits 0x21 [(16, 4, 2), (25, 16, 0x60), (41, 4, 6), (49, 16, 0x70), (65, 4, 6), (145, 15, 1), (160, 24, 1),
    (184, 10, 8), (194, 12, 8), (298, 5, 3), (303, 1, 1), (305, 2, 1), (307, 9, 4), (316, 15, 1), (331, 10, 8)]
  running false 0 (fun t => { t with rows := [(0x60, 0x4000), (0x70, 0x4040), (0x5000, row (bundle6 x))] })

theorem test_sp_mm :
    (Issues sSp 0 0 false 0 (launch false) (opOf sSp) ∧ (opOf sSp).code = 0x21) ∧
    (opSpMm 0 (opOf sSp) sSp).status = stOk ∧
    elem 32 (readRow (after (exec (.spMm 0 0) sSp)) 0 0x8204).2.toNat 0 = 0x40C00000 :=
  ⟨issues_of (by decide +kernel), by decide +kernel⟩

/-- sp.mm in wide-shallow form: a sparse BF16 activation of one row whose line has K-blocks 0 and 2, of K 96, and 8 columns of
dense BF16 weights, added to the open group 3 of A1. -/
def sWide : State :=
  let x := opBits 0x21 [(16, 4, 2), (20, 1, 1), (25, 16, 1), (49, 16, 0x70), (65, 4, 6), (184, 10, 8), (194, 12, 8), (298, 5, 3)]
  let d := withCrc64 (tileAddr 0 0x10 + tileAddr 0 0x60 <<< 64 + 96 <<< 256 + 1 <<< 280 + 2 <<< 304 + 6 <<< 336)
  running false 0 (fun t => { t.setGroup 1 3 (group3 1) with
    rows := [(1, row d), (0x10, 0b101), (0x60, 0x4000), (0x61, 0x4040), (0x70, 0x4040), (0x72, 0x4080), (0x5000, row (bundle6 x)),
             (0x8204, 0x3F800000)] })

/-- 1 + 2 * 3, and then + 3 * 4 of K-block 2: 19; POSITIONS 2 + 96. -/
theorem test_sp_mm_wide :
    (Issues sWide 0 0 false 0 (launch false) (opOf sWide) ∧ (opOf sWide).code = 0x21) ∧ Faultless sWide ∧
    (opSpMm 0 (opOf sWide) sWide).status = stOk ∧ (sWide.readRef 0 ((opOf sWide).ref 25)).2.isSome = true ∧
    (opOf sWide).ix 49 16 = some 0x70 ∧
    (let f := (opOf sWide).spF
     f.arrays = [1] ∧ f.aSp = true ∧ f.bSp = false ∧ f.cSp = false ∧ f.masked = false ∧ f.pred = false ∧ f.itemEn = false ∧
     f.close = false ∧ f.g.opens = false ∧ f.g.rowOff = some 0 ∧ f.g.gid = 3 ∧ wideForm f.form 1 = true) ∧
    (let g := (sWide.tile 0).group 1 3; g.base + g.rows ≤ 512 ∧ g.fmt ≤ 2) ∧
    elem 32 (readRow (after (exec (.spMm 0 0) sWide)) 0 0x8204).2.toNat 0 = 0x41980000 ∧
    (((after (exec (.spMm 0 0) sWide)).tile 0).group 1 3).positions = 98 :=
  ⟨issues_of (by decide +kernel), faultless_of (by decide +kernel) rfl rfl, by decide +kernel⟩

/-- What the checks of sp.mm settle in that state, and in the one that opens its group. -/
theorem test_sp_mm_frame :
    (match ((sWide.nameGroups 0 0 [1] 3).spCheck 0 (opOf sWide) (opOf sWide).spF).2 with
     | .ok q => q.c.isNone && q.pred.isNone
     | .error _ => false) = true ∧
    (match ((sSp.nameGroups 0 0 [1] 3).spCheck 0 (opOf sSp) (opOf sSp).spF).2 with
     | .ok q => q.c.isNone
     | .error _ => false) = true ∧ Faultless sSp ∧ PortsFit sSp :=
  ⟨by decide +kernel, by decide +kernel, faultless_of (by decide +kernel) rfl rfl, by decide +kernel⟩

end Sys2Proof.Tests
end

