-- ==== Sys2Proof/Tests/Bitmaps.lean ====
section
/-! SUPPORT. Compatibility products, bitmap rows, merge and dispatch: states that meet the hypotheses of the statements, with
values by hand. -/

namespace Sys2Proof.Tests
open Sys2Proof.Machine
set_option Elab.async false

/-! ### Compatibility -/

/-- c.mm of one K on A1 from BF16 operands, into output tile 0 that holds zeros. -/
def sCmm : State :=
  running true (cbundle (opBits 0x20 [(16, 4, 2), (20, 4, 6), (24, 4, 6), (31, 24, 1), (55, 16, 0x60), (71, 16, 0x70)])) (fun t =>
    { t with rows := [(0x60, 0x40400000), (0x70, 0x4000)] ++ t.rows })

theorem test_c_mm :
    (Issues sCmm 0 0 true 0 (launch true) (opOf sCmm) ∧ (opOf sCmm).code = 0x20) ∧ (opOf sCmm).ix 55 16 = some 0x60 ∧
    (opOf sCmm).ix 71 16 = some 0x70 ∧ setBits 4 ((opOf sCmm).f 16 4) = [1] ∧ compatRows 6 1 = 1 ∧
    (sCmm.tile 0).banks = [] ∧ ((sCmm.tile 0).otile 1 ((opOf sCmm).f 29 1)).length = 4096 :=
  ⟨issues_of (by decide +kernel), by decide +kernel⟩

/-- 2 * 3 in FP32: element (1, 0). -/
theorem test_c_mm_value :
    (((after (exec (.cMm 0 0) sCmm)).tile 0).otile 1 0)[64]? = some 0x40C00000 := by decide +kernel

def sDrain : State :=
  running true (cbundle (opBits 0x21 [(16, 4, 1), (21, 4, 9), (27, 9, 8)])) (fun t =>
    { t with otiles := [(0, List.replicate 4096 0x3F800000)] })

theorem test_c_drain :
    (Issues sDrain 0 0 true 0 (launch true) (opOf sDrain) ∧ (opOf sDrain).code = 0x21) ∧ (opOf sDrain).ix 27 9 = some 8 ∧
    setBits 4 ((opOf sDrain).f 16 4) = [0] ∧ 8 * fmtBytes 9 + 8 ≤ 512 ∧ isOutputFmt 9 = true ∧ (opOf sDrain).f 25 2 ≤ 1 ∧
    ((sDrain.tile 0).otile 0 ((opOf sDrain).f 20 1)).length = 4096 :=
  ⟨issues_of (by decide +kernel), by decide +kernel⟩

/-! ### Bitmap rows -/

/-- The state once the operation that list 0 of tile 0 issues first has completed. -/
def completed (i : Instr) (s : State) : State := after (exec (.operationComplete 0 0) (after (exec i s)))

/-- Rows 1 and 2 hold two bitmaps, in different banks. -/
def sBits (code : Nat) (fs : List (Nat × Nat × Nat)) : State :=
  running false (bundle1 (opBits code fs)) (fun t => { t with rows := [(1, 0b1011), (2, 0b1110)] ++ t.rows })

def combineFields : List (Nat × Nat × Nat) := [(16, 16, 1), (32, 16, 2), (48, 16, 0x20), (64, 1, 1), (65, 13, 3)]

/-- One of the three combinations issues next, with everything that the statement asks. -/
def combines (s : State) (code : Nat) : Bool :=
  issuing s false code && (opOf s).ix 16 16 == some 1 && (opOf s).ix 32 16 == some 2 && (opOf s).ix 48 16 == some 0x20 &&
  (opOf s).f 65 13 == 3 && bit (opOf s).bits 64 && (s.tile 0).banks == [] && !(s.tile 0).progRow 0x20 &&
  (bankOf 1).1 != (bankOf 2).1

/-- 1011 and 1110 in their lowest three bits. -/
theorem test_conc_and : combines (sBits 0x30 combineFields) 0x30 = true ∧
    Sparse.get 0 ((after (exec (.concAnd 0 0) (sBits 0x30 combineFields))).tile 0).rows 0x20 = 0b010 := by decide +kernel
theorem test_conc_or : combines (sBits 0x31 combineFields) 0x31 = true ∧
    Sparse.get 0 ((after (exec (.concOr 0 0) (sBits 0x31 combineFields))).tile 0).rows 0x20 = 0b111 := by decide +kernel
theorem test_conc_andn : combines (sBits 0x32 combineFields) 0x32 = true ∧
    Sparse.get 0 ((after (exec (.concAndn 0 0) (sBits 0x32 combineFields))).tile 0).rows 0x20 = 0b001 := by decide +kernel

def sPop : State := sBits 0x33 [(16, 16, 1), (32, 4, 5), (36, 13, 2)]

theorem test_conc_pop :
    (Issues sPop 0 0 false 0 (launch false) (opOf sPop) ∧ (opOf sPop).code = 0x33) ∧ (opOf sPop).ix 16 16 = some 1 ∧
    (sPop.tile 0).banks = [] ∧ (opOf sPop).f 36 13 = 2 ∧
    (after (exec (.concPop 0 0) sPop)).x 0 0 5 = 0 ∧ (completed (.concPop 0 0) sPop).x 0 0 5 = 2 :=
  ⟨issues_of (by decide +kernel), by decide +kernel⟩

def sScan : State := sBits 0x34 [(16, 16, 1), (32, 16, 2), (48, 4, 5), (52, 13, 4096)]

theorem test_conc_scan :
    (Issues sScan 0 0 false 0 (launch false) (opOf sScan) ∧ (opOf sScan).code = 0x34) ∧
    (opOf sScan).ix 16 16 = some 1 ∧ (sScan.tile 0).banks = [] ∧ (opOf sScan).f 32 16 = 2 ∧ (opOf sScan).f 52 13 = 4096 ∧
    (completed (.concScan 0 0) sScan).x 0 0 5 = 6 := ⟨issues_of (by decide +kernel), by decide +kernel⟩

/-- conc.match with bases 100 and 200. -/
def sMatch : State :=
  running false (bundle3 (opBits 0x35 [(16, 16, 1), (32, 16, 2), (48, 16, 0x20), (64, 1, 1), (65, 13, 4096), (78, 32, 100),
    (110, 32, 200)])) (fun t => { t with rows := [(1, 0b1011), (2, 0b1110)] ++ t.rows })

/-- The common bits 1 and 3 have ranks 1 and 2 in the first row, 0 and 2 in the second. -/
theorem test_conc_match :
    (Issues sMatch 0 0 false 0 (launch false) (opOf sMatch) ∧ (opOf sMatch).code = 0x35) ∧
    (opOf sMatch).ix 16 16 = some 1 ∧ (opOf sMatch).ix 32 16 = some 2 ∧ (opOf sMatch).ix 48 16 = some 0x20 ∧
    bit (opOf sMatch).bits 64 = true ∧ bit (opOf sMatch).bits 207 = false ∧ (opOf sMatch).f 174 32 = 0 ∧
    (opOf sMatch).f 65 13 = 4096 ∧ (sMatch.tile 0).banks = [] ∧ (bankOf 1).1 ≠ (bankOf 2).1 ∧
    extentsMeet 0x20 1 1 0x5000 1 1 = false ∧ extentsMeet 0x20 1 1 0x5800 2 1 = false ∧
    Sparse.get 0 ((after (exec (.concMatch 0 0) sMatch)).tile 0).rows 0x20 =
      row (matchEntry 1 101 200 0 + matchEntry 3 102 202 0 <<< 128) :=
  ⟨issues_of (by decide +kernel), by decide +kernel⟩

/-- conc.match to stream queue 3, of row 1 with itself; and of the pairs whose rank in the second operand is 1 or 2. -/
def sMatchTo (fs : List (Nat × Nat × Nat)) : State :=
  running false (bundle3 (opBits 0x35 ([(16, 16, 1), (65, 13, 4096)] ++ fs)))
    (fun t => { t with rows := [(1, 0b1011), (17, 0b1110)] ++ t.rows })
def sMatchQ : State := sMatchTo [(32, 16, 17), (207, 1, 1), (208, 3, 3)]
def sMatchR : State := sMatchTo [(32, 16, 17), (142, 32, 1), (174, 32, 2), (206, 1, 1), (48, 16, 0x20), (64, 1, 1)]

/-- Rows 1 and 17 stand in one bank: bit 3 is the one whose rank in row 17, 2, lies in the range. -/
theorem test_conc_match_forms :
    (Issues sMatchQ 0 0 false 0 (launch false) (opOf sMatchQ) ∧ (opOf sMatchQ).code = 0x35) ∧
    (Issues sMatchR 0 0 false 0 (launch false) (opOf sMatchR) ∧ (opOf sMatchR).code = 0x35) ∧
    (bankOf 1).1 = (bankOf 17).1 ∧ (sMatchQ.tile 0).fresh = [] ∧ bit (opOf sMatchQ).bits 207 = true ∧ (opOf sMatchQ).f 208 3 = 3 ∧
    (sMatchQ.queue 0 3).owner = none ∧ (sMatchQ.tile 0).queues = [] ∧ (opOf sMatchR).f 174 32 = 2 ∧ (opOf sMatchR).f 206 1 = 1 ∧
    (sMatchR.tile 0).banks = [] ∧
    ((after (exec (.concMatch 0 0) sMatchQ)).queue 0 3).entries.map (fun e => (fld e 0 20, fld e 32 32, fld e 64 32)) =
      [(1, 1, 0), (3, 2, 2)] ∧
    ((after (exec (.concMatch 0 0) sMatchQ)).tile 0).flights.map (fun f => f.emits) = [some (3, 2)] ∧
    Sparse.get 0 ((after (exec (.concMatch 0 0) sMatchR)).tile 0).rows 0x20 = row (matchEntry 3 2 2 0) :=
  ⟨issues_of (by decide +kernel), issues_of (by decide +kernel), by decide +kernel⟩

/-! ### Merge and dispatch -/

/-- A tensor descriptor of K 32 and O 8 in tile 0: its bitmap at `bm`, FMT, NNZB and its values at `v`. -/
def tensor (bm v fmt nnzb : Nat) : Nat :=
  withCrc64 (tileAddr 0 bm + tileAddr 0 v <<< 64 + 32 <<< 256 + 8 <<< 280 + nnzb <<< 304 + fmt <<< 336)

/-- mrg.run of one FP32 partial with no block, into FP32: descriptor row 1 holds the merge, the output and the partial. -/
def sMrg : State :=
  let d := withCrc64 (pack [(0, 4, 1), (4, 4, 9), (16, 24, 0x200001), (128, 24, 0x400001)])
  running false (bundle1 (opBits 0x38 [(16, 24, 1)])) (fun t =>
    { t with rows := [(1, row (d + tensor 0x10 0 9 0 <<< 512 + tensor 0x11 0 9 0 <<< 1024))] ++ t.rows })

theorem test_mrg_run :
    (Issues sMrg 0 0 false 0 (launch false) (opOf sMrg) ∧ (opOf sMrg).code = 0x38) ∧
    (opMrgRun 0 (opOf sMrg) sMrg).status = stOk := ⟨issues_of (by decide +kernel), by decide +kernel⟩

/-- mrg.run of two FP32 partials with a block each, whose bitmaps stand in one bank, into BF16: 1.5 + 2.0 in element (0, 0), the
second partial's alone in no block. -/
def sMerge : State :=
  let d := withCrc64 (pack [(0, 4, 2), (4, 4, 6), (16, 24, 0x200001), (128, 24, 0x400001), (152, 24, 0x600001)])
  running false (bundle1 (opBits 0x38 [(16, 24, 1)])) (fun t =>
    { t with rows := [(1, row (d + tensor 0x10 0x30 6 1 <<< 512 + tensor 0x11 0x40 9 1 <<< 1024 + tensor 0x21 0x50 9 1 <<< 1536)),
      (0x11, 1), (0x21, 1), (0x40, 0x3FC00000), (0x50, 0x40000000)] ++ t.rows })

/-- What the statement asks beside the checks. -/
def mergeClear (s : State) (ox : Nat) : Bool :=
  (tensorOf ox).regions.all (fun g => !regionsMeet g (tileAddr (s.ent 0).logical 0x5000, 1) &&
    !regionsMeet g (tileAddr (s.ent 0).logical 0x5800, 2))

/-- 3.5 is 0x4060 in BF16; the bitmap of the output has its one bit. -/
theorem test_mrg_content :
    (Issues sMerge 0 0 false 0 (launch false) (opOf sMerge) ∧ (opOf sMerge).code = 0x38) ∧ Faultless sMerge ∧ PortsFit sMerge ∧
    (opMrgRun 0 (opOf sMerge) sMerge).status = stOk ∧ (sMerge.readRef 0 ((opOf sMerge).ref 16)).2.isSome = true ∧
    (sMerge.readRef 0 (some 0x200001)).2 = some (tensor 0x10 0x30 6 1) ∧ mergeClear sMerge (tensor 0x10 0x30 6 1) = true ∧
    (bankOf 0x11).1 = (bankOf 0x21).1 ∧
    Sparse.get 0 ((after (exec (.mrgRun 0 0) sMerge)).tile 0).rows 0x10 = 1 ∧
    Sparse.get 0 ((after (exec (.mrgRun 0 0) sMerge)).tile 0).rows 0x30 = 0x4060 :=
  ⟨issues_of (by decide +kernel), faultless_of (by decide +kernel) rfl rfl, by decide +kernel, by decide +kernel⟩

/-- disp.run over tiles 0 and 1 of an operand that has its one block: the table is at row 0x40. -/
def sDisp : State :=
  let d := withCrc64 (pack [(0, 24, 0x200001), (34, 11, 2), (53, 4, 2), (64, 16, 0x40), (96, 32, 4)])
  running false (bundle1 (opBits 0x39 [(16, 24, 1)])) (fun t =>
    { t with rows := [(1, row (d + tensor 0x10 0x12 6 1 <<< 512)), (0x10, 1)] ++ t.rows })

theorem test_disp_run :
    (Issues sDisp 0 0 false 0 (launch false) (opOf sDisp) ∧ (opOf sDisp).code = 0x39) ∧
    (opDispRun 0 (opOf sDisp) sDisp).1.status = stOk ∧ (opDispRun 0 (opOf sDisp) sDisp).1.res0 = 1 ∧
    (opDispRun 0 (opOf sDisp) sDisp).2 = [0, 1] ∧
    Sparse.get 0 ((after (exec (.dispRun 0 0) sDisp)).tile 0).rows 0x40 = row (dispEntry ((0, 0, 1, 0, 1), 0)) :=
  ⟨issues_of (by decide +kernel), by decide +kernel⟩

/-- disp.run over tiles 3 and 4 of an operand of two lines, of 3 blocks and of 1: tau is 1/2 * 2 = 1, so the first line is split into
min(2, ceil(3/1)) = 2 segments; the table is at row 0x40. -/
def sSplit : State :=
  let y := withCrc64 (tileAddr 0 0x10 + tileAddr 0 0x12 <<< 64 + 96 <<< 256 + 16 <<< 280 + 4 <<< 304 + 6 <<< 336)
  let d := withCrc64 (pack [(0, 24, 0x200001), (24, 10, 3), (34, 11, 2), (45, 8, 2), (53, 4, 2), (64, 16, 0x40), (96, 32, 4)])
  running false (bundle1 (opBits 0x39 [(16, 24, 1)])) (fun t =>
    { t with rows := [(1, row (d + y <<< 512)), (0x10, 0b111), (0x11, 0b010)] ++ t.rows })

/-- Of four blocks, those from the second on go to tile 3 + 2p/4. -/
theorem test_disp_table :
    (Issues sSplit 0 0 false 0 (launch false) (opOf sSplit) ∧ (opOf sSplit).code = 0x39) ∧ Faultless sSplit ∧
    (opDispRun 0 (opOf sSplit) sSplit).1.status = stOk ∧ (sSplit.readRef 0 ((opOf sSplit).ref 16)).2.isSome = true ∧
    (sSplit.readRef 0 (some 0x200001)).2.isSome = true ∧
    extentsMeet 0x40 1 1 0x5000 1 1 = false ∧ extentsMeet 0x40 1 1 0x5800 2 1 = false ∧
    (let e (i : Nat) := elem 128 (Sparse.get 0 ((after (exec (.dispRun 0 0) sSplit)).tile 0).rows 0x40).toNat i
     let f (x : Nat) := (fld x 0 32, fld x 32 32, fld x 64 32, fld x 96 4, fld x 100 4, fld x 104 10)
     (List.range 4).map (fun i => f (e i)) = [(0, 0, 1, 0, 2, 3), (0, 1, 2, 1, 2, 3), (1, 0, 1, 0, 1, 4), (0, 0, 0, 0, 0, 0)]) :=
  ⟨issues_of (by decide +kernel), faultless_of (by decide +kernel) rfl rfl, by decide +kernel⟩

/-- The operand of that dispatch with a row-offset index whose one entry is 0. -/
theorem test_pattern_read :
    let t : Tensor := { tensorOf (tensor 0x10 0x12 6 4) with kdim := 96, odim := 16, hasIndex := true, index := tileAddr 0 0x13 }
    Faultless sSplit ∧ cdiv t.rb 64 = 1 ∧ decodeAddr t.index = some (.scr 0 0x13) ∧
    elem 32 (sSplit.readPlace (.scr 0 0x13)).2.toNat 0 = 0 ∧ t.posAt sSplit 0 0 = 0 ∧
    (sSplit.readPattern t false).2.1.lines = [[(0, 0), (1, 1), (2, 2)], [(1, 3)]] :=
  ⟨faultless_of (by decide +kernel) rfl rfl, by decide +kernel⟩

/-- ctl.dfind in a table of tile 1: three entries for tiles 0, 0 and 1. -/
def sFind : State :=
  let s := running false (bundle1 (opBits 0x08 [(16, 4, 3), (20, 4, 4), (24, 10, 1), (34, 16, 0x40), (50, 20, 3)])) id
  { s with tiles := s.tiles ++ [(1, { Tile.reset with rows := [(0x40,
      row (dispEntry ((0, 0, 1, 0, 1), 0) + dispEntry ((1, 0, 1, 0, 1), 0) <<< 128 + dispEntry ((2, 0, 1, 0, 1), 1) <<< 256))] })] }

theorem test_ctl_dfind :
    (Issues sFind 0 0 false 0 (launch false) (opOf sFind) ∧ (opOf sFind).code = 0x08) ∧
    sFind.phys ((opOf sFind).f 24 10) = some 1 ∧ (opOf sFind).f 34 16 + cdiv ((opOf sFind).f 50 20) 32 ≤ 0x6000 ∧
    (opOf sFind).f 34 16 = 0x40 ∧ ascending (tableTiles sFind 1 0x40 3) = true ∧ (opOf sFind).f 16 4 = 3 ∧
    (opOf sFind).f 20 4 = 4 ∧ (sFind.ent 0).logical = 0 ∧
    (completed (.ctlDfind 0 0) sFind).x 0 0 4 = 2 ∧
    (completed (.ctlDfind 0 0) sFind).x 0 0 3 = tileAddr 1 0x40 := ⟨issues_of (by decide +kernel), by decide +kernel⟩

end Sys2Proof.Tests
end

