-- ==== Sys2Proof/Tests/Transfers.lean ====
section
/-! SUPPORT. Stream queues, transfers, windows and credits: states that meet the hypotheses of the statements, with values by
hand. -/

namespace Sys2Proof.Tests
open Sys2Proof.Machine
set_option Elab.async false

/-- A descriptor (Table 10-3) of the fields given. -/
def sdesc (fs : List (Nat × Nat × Nat)) : Nat := withCrc64 (pack fs)

/-- Queue 2 of a tile, with a ring of 8 slots at row 0x100 whose slot 0 is released. -/
def queue2 : Queue :=
  { Queue.reset with ringRow := 0x100, ringSlots := 8, maxOut := 4, unstarted := 1, rel := [none] }

/-- Tile 0 with that queue and `d` in slot 0, and nothing else in its other queues. -/
def ring (d : Nat) (f : Tile → Tile) : State :=
  { device with tiles := [(0, f { Tile.reset with rows := [(0x100, row d)], queues := [(2, queue2)] })] }

theorem queue_other {s : State} {p q : Nat} {u : Queue} (h : (s.tile p).queues = [(q, u)]) :
    ∀ r, r ≠ q → s.queue p r = Queue.reset := by
  intro r hr
  simp [State.queue, Tile.queue, h, Sparse.get, Ne.symm hr]

theorem queue_none {s : State} {p : Nat} (h : (s.tile p).queues = []) : ∀ q, s.queue p q = Queue.reset := by
  intro q
  simp [State.queue, Tile.queue, h]

/-! ### Release -/

def sGo (compat : Bool) (k : Nat) : State :=
  running compat (let x := opBits 0x60 [(16, 3, 2), (19, 16, k)]; if compat then cbundle x else bundle1 x)
    (fun t => { t with queues := [(2, queue2)] })

/-- Three more slots; eight more would pass the ring's eight. -/
theorem test_str_go :
    (Issues (sGo false 3) 0 0 false 0 (launch false) (opOf (sGo false 3)) ∧ (opOf (sGo false 3)).code = 0x60) ∧
    ((sGo false 3).queue 0 2).owner = none ∧ ((sGo false 3).queue 0 2).ringSlots = 8 ∧ ((sGo false 3).queue 0 2).started = [] ∧
    ((after (exec (.strGo 0 0) (sGo false 3))).queue 0 2).unstarted = 4 ∧
    ((after (exec (.strGo 0 0) (sGo false 8))).queue 0 2).unstarted = 1 := ⟨issues_of (by decide +kernel), by decide +kernel⟩

/-- Queue 2 is CANCELLING with nothing outstanding. -/
def cancels (u : Queue) : Queue := { u with unstarted := 0, rel := [], cancelling := some ⟨1, .op, 0⟩ }

def sGoWaits : State := running false (bundle1 (opBits 0x60 [(16, 3, 2), (19, 16, 3)])) (fun t => { t with queues := [(2, cancels queue2)] })

/-- A release behind a cancellation waits for it. -/
theorem test_str_go_waits :
    (Issues sGoWaits 0 0 false 0 (launch false) (opOf sGoWaits) ∧ (opOf sGoWaits).code = 0x60) ∧
    (sGoWaits.queue 0 2).cancelling ≠ none ∧ ((after (exec (.strGo 0 0) sGoWaits)).queue 0 2).behind = [.go 3] ∧
    ((after (exec (.strGo 0 0) sGoWaits)).queue 0 2).unstarted = 0 := ⟨issues_of (by decide +kernel), by decide +kernel⟩

theorem test_c_sgo :
    (Issues (sGo true 3) 0 0 true 0 (launch true) (opOf (sGo true 3)) ∧ (opOf (sGo true 3)).code = 0x60) ∧
    ((after (exec (.cSgo 0 0) (sGo true 3))).queue 0 2).unstarted = 4 := ⟨issues_of (by decide +kernel), by decide +kernel⟩

/-- PARAMS of a command: widths and values in order. -/
def args : List (Nat × Nat) → Nat
  | [] => 0
  | (w, v) :: l => v % 2 ^ w + args l <<< w

def goCmd : Cmd := command 0x0502 (args [(10, 0), (3, 2), (16, 5)]) []
def sStreamGo : State := asks (ring 0 id) goCmd

theorem test_stream_go :
    Starts sStreamGo 4 0x0502 goCmd ∧ sStreamGo.namedTile (goCmd.arg 0) = some 0 ∧ goCmd.arg 1 = 2 ∧ goCmd.arg 2 = 5 ∧
    (sStreamGo.queue 0 2).owner = none ∧ (sStreamGo.queue 0 2).ringSlots = 8 ∧ (sStreamGo.queue 0 2).started = [] ∧
    ((after (exec (.streamGo 4) sStreamGo)).queue 0 2).unstarted = 6 :=
  ⟨starts_of (by decide +kernel), by decide +kernel⟩

def sStreamGoWaits : State := asks { device with tiles := [(0, { Tile.reset with queues := [(2, cancels queue2)] })] } goCmd

theorem test_stream_go_waits :
    Starts sStreamGoWaits 4 0x0502 goCmd ∧ (sStreamGoWaits.queue 0 2).cancelling ≠ none ∧
    (sStreamGoWaits.queue 0 2).owner = none ∧ (sStreamGoWaits.queue 0 2).ringSlots ≠ 0 ∧
    ((after (exec (.streamGo 4) sStreamGoWaits)).queue 0 2).behind = [.goCmd 4 5] :=
  ⟨starts_of (by decide +kernel), by decide +kernel⟩

/-! ### Starts -/

def startsHere (s : State) (d rows : Nat) : Bool :=
  s.phys 0 == some 0 && (s.tile 0).startable 2 && (s.tile 0).headDesc (s.queue 0 2) == d &&
  !Sparse.get false (s.tile 0).fresh 0x100 && (s.tile 0).cleanAt 0x100 && crcOk64 d && descRanges d && s.descUse 0 d && !dPaged d &&
  s.acctKey 0 d == none && rows != 0 && s.extentChecks d rows == stOk && s.addrStatus d rows == stOk

/-- A copy of two rows of tile 0, from row 0x10, to HBM rows 7 and 8. -/
def dCopy : Nat := sdesc [(0, 64, tileAddr 0 0x10), (64, 64, 512 * 7), (128, 24, 2), (152, 32, 1), (184, 32, 1), (456, 8, 77)]
def sCopy : State := ring dCopy (fun t => { t with rows := [(0x10, 5), (0x11, 6)] ++ t.rows })
theorem test_str_copy : startsHere sCopy dCopy 2 = true ∧ dKind dCopy = 0 ∧ dRows dCopy = 2 := by decide +kernel

/-- A gather of the rows that the bitmap in row 0x20 selects, rows 0 and 2 of four. -/
def dGather : Nat := sdesc [(0, 64, 512 * 100), (64, 64, tileAddr 0 0x30), (128, 24, 4), (152, 32, 1), (184, 32, 1),
  (216, 64, tileAddr 0 0x20), (280, 4, 1)]
def sGather : State := ring dGather (fun t => { t with rows := [(0x20, 0b101)] ++ t.rows })
theorem test_str_gather :
    startsHere sGather dGather 2 = true ∧ dKind dGather = 1 ∧ (sGather.readBitmap 0 dGather).2 = some [0, 2] ∧
    decodeAddr (dAux dGather) = some (.scr 0 0x20) ∧ (sGather.tile 0).cleanAt 0x20 = true := by decide +kernel

def dMatch : Nat := sdesc [(0, 64, 512 * 100), (64, 64, tileAddr 0 0x30), (128, 24, 4), (152, 32, 1), (184, 32, 1), (216, 64, 6),
  (280, 4, 2)]
def sMatchStart : State := ring dMatch id
theorem test_str_match :
    startsHere sMatchStart dMatch 4 = true ∧ dKind dMatch = 2 ∧ (sMatchStart.queue 0 2).entries = [] := by decide +kernel

/-- The same copy with a wrong check word ends with BAD_CRC, 0x11. -/
def sBadCrc : State := ring (dCopy + 1 <<< 500) id
theorem test_desc_bad_crc :
    sBadCrc.phys 0 = some 0 ∧ (sBadCrc.tile 0).startable 2 = true ∧
    dKind ((sBadCrc.tile 0).headDesc (sBadCrc.queue 0 2)) = 0 ∧
    crcOk64 ((sBadCrc.tile 0).headDesc (sBadCrc.queue 0 2)) = false ∧ (sBadCrc.tile 0).cleanAt 0x100 = true ∧
    ((after (exec (.strCopy 0 2) sBadCrc)).queue 0 2).lastStatus = stBadCrc := by decide +kernel

/-! ### Window descriptors -/

/-- A window entry (Table 09-2): 4 rows from 0x200, 3 credits, every tile of this device. -/
def winEntry : Nat := pack [(0, 16, 0x200), (16, 16, 4), (32, 16, 3), (48, 5, 9), (53, 1, 1), (54, 2, 1)]
def window1 : Window := windowOf winEntry 5

def dWin (wop count : Nat) (fs : List (Nat × Nat × Nat)) : Nat :=
  sdesc ([(216, 64, wop + count <<< 2), (280, 4, 3), (284, 4, 1)] ++ fs)

def sWin (wop count : Nat) (fs : List (Nat × Nat × Nat)) (w : Window) : State :=
  ring (dWin wop count fs) (fun t => { t with rows := [(0x10, row winEntry)] ++ t.rows, windows := [(1, w)] })

/-- What the statement asks of every WINCTL descriptor. -/
def winctlStarts (s : State) (wop : Nat) : Bool :=
  let d := (s.tile 0).headDesc (s.queue 0 2)
  s.phys 0 == some 0 && (s.tile 0).startable 2 && (s.tile 0).cleanAt 0x100 && crcOk64 d && descRanges d && s.descUse 0 d &&
  dKind d == 3 && dWop d == wop && dWindow d == 1 && (s.queue 0 2).started == [] && !Sparse.get false (s.tile 0).fresh 0x100

def sWopen : State := sWin 0 0 [(0, 64, tileAddr 0 0x10)] { Window.reset with gen := 4 }

theorem test_winctl_open :
    winctlStarts sWopen 0 = true ∧ (∀ r, r ≠ 2 → sWopen.queue 0 r = Queue.reset) ∧
    decodeAddr (dSrc ((sWopen.tile 0).headDesc (sWopen.queue 0 2))) = some (.scr 0 0x10) ∧ sWopen.room (.scr 0 0x10) ≠ 0 ∧
    (sWopen.tile 0).cleanAt 0x10 = true ∧
    openStatus (sWopen.tile 0) 1 (fld (readRow sWopen 0 0x10).2.toNat 0 256) = stOk ∧
    (after (exec (.winctlOpen 0 2) sWopen)).win 0 1 = window1 :=
  ⟨by decide +kernel, queue_other (u := queue2) (by decide +kernel), by decide +kernel⟩

def sWclose : State := sWin 1 0 [] window1

theorem test_winctl_close :
    winctlStarts sWclose 1 = true ∧ (∀ r, r ≠ 2 → sWclose.queue 0 r = Queue.reset) ∧ (sWclose.win 0 1).isOpen = true ∧
    (sWclose.win 0 1).ledger = [] ∧ (after (exec (.winctlClose 0 2) sWclose)).win 0 1 = { Window.reset with gen := 5 } :=
  ⟨by decide +kernel, queue_other (u := queue2) (by decide +kernel), by decide +kernel⟩

def sWreturn : State := sWin 2 2 [] { window1 with consumed := 3, pool := 0 }

theorem test_winctl_return :
    winctlStarts sWreturn 2 = true ∧ (∀ r, r ≠ 2 → sWreturn.queue 0 r = Queue.reset) ∧ (sWreturn.win 0 1).isOpen = true ∧
    (sWreturn.win 0 1).ledger = [] ∧ dWcount ((sWreturn.tile 0).headDesc (sWreturn.queue 0 2)) = 2 ∧
    (after (exec (.winctlReturn 0 2) sWreturn)).win 0 1 = { window1 with consumed := 1, pool := 2 } :=
  ⟨by decide +kernel, queue_other (u := queue2) (by decide +kernel), by decide +kernel⟩

def sWread : State := sWin 3 0 [(64, 64, tileAddr 0 0x40)] window1

theorem test_winctl_read :
    winctlStarts sWread 3 = true ∧ (∀ r, r ≠ 2 → sWread.queue 0 r = Queue.reset) ∧
    decodeAddr (dDst ((sWread.tile 0).headDesc (sWread.queue 0 2))) = some (.scr 0 0x40) ∧ rowExists 0x40 = true ∧
    (sWread.tile 0).progRow 0x40 = false ∧ (sWread.tile 0).launch = none ∧
    fld (Sparse.get 0 ((after (exec (.winctlRead 0 2) sWread)).tile 0).rows 0x40).toNat 0 48 = 0x000300040200 :=
  ⟨by decide +kernel, queue_other (u := queue2) (by decide +kernel), by decide +kernel⟩

/-! ### Reads and writes -/

/-- The copy of rows 0x10 and 0x11 with both reads outstanding. -/
def sReads : State := after (exec (.strCopy 0 2) sCopy)
def started0 (s : State) : Started := (s.queue 0 2).started.getD 0 (Started.fresh 0 0 none)

theorem test_read_return :
    sReads.phys 0 = some 0 ∧ (sReads.queue 0 2).missing[1]? = some (0, 1) ∧
    (sReads.queue 0 2).started[0]? = some (started0 sReads) ∧ (started0 sReads).srcPlace 1 = some (.scr 0 0x11) ∧
    sReads.room (.scr 0 0x11) ≠ 0 ∧ (started0 sReads).failAt = none ∧ dKind (started0 sReads).desc = 0 ∧
    dPaged (started0 sReads).desc = false ∧ dCvtEn (started0 sReads).desc = false ∧
    decodeAddr (dDst (started0 sReads).desc) = some (.hbm 7) ∧
    ((started0 sReads).total - 1) * dDstStride (started0 sReads).desc < sReads.room (.hbm 7) ∧
    (started0 sReads).done ≤ (started0 sReads).writes ∧ (sReads.queue 0 2).cancelling = none ∧ sReads.mem.hbmFaults = [] ∧
    (started0 (after (exec (.rowReadReturn 0 2 1 .clean) sReads))).buf = [(1, 6)] ∧
    (started0 (after (exec (.rowReadReturn 0 2 0 .clean) sReads))).out = [(512 * 7, 5, 0)] := by decide +kernel

/-- The write of row 5 to HBM row 7. -/
def sWrites : State := after (exec (.rowReadReturn 0 2 0 .clean) sReads)

theorem test_write_complete :
    sWrites.phys 0 = some 0 ∧ sWrites.logical 0 = some 0 ∧
    (sWrites.queue 0 2).started.findIdx? (sWrites.acked 0 2 (sWrites.queue 0 2)) = some 0 ∧
    (sWrites.queue 0 2).started[0]? = some (started0 sWrites) ∧ (started0 sWrites).out = [(512 * 7, 5, 0)] ∧
    sWrites.mem.hbmFaults = [] ∧ decodeAddr (512 * 7) = some (.hbm 7) ∧
    Sparse.get 0 (after (exec (.rowWriteComplete 0 2) sWrites)).mem.hbm 7 = 5 := by decide +kernel

/-- A copy within tile 0, to row 0x50. -/
def sLocal : State :=
  let d := sdesc [(0, 64, tileAddr 0 0x10), (64, 64, tileAddr 0 0x50), (128, 24, 1), (152, 32, 1), (184, 32, 1)]
  let s := ring d (fun t => { t with rows := [(0x10, 5)] ++ t.rows })
  after (exec (.rowReadReturn 0 2 0 .clean) (after (exec (.strCopy 0 2) s)))

theorem test_write_complete_local :
    (started0 sLocal).out = [(tileAddr 0 0x50, 5, 0)] ∧ decodeAddr (tileAddr 0 0x50) = some (.scr 0 0x50) ∧
    (sLocal.queue 0 2).started[0]? = some (started0 sLocal) ∧ (sLocal.tile 0).progRow 0x50 = false ∧
    Sparse.get 0 ((after (exec (.rowWriteComplete 0 2) sLocal)).tile 0).rows 0x50 = 5 ∧
    ((after (exec (.rowWriteComplete 0 2) sLocal)).queue 0 2).lastStatus = stOk ∧
    ((after (exec (.rowWriteComplete 0 2) sLocal)).queue 0 2).lastRows = 1 := by decide +kernel

/-- A write to tile 1 whose row has arrived there. -/
def sOverMesh : State := sWrites.updQueue 0 2 (fun u => { u with
  started := [{ started0 sWrites with out := [(tileAddr 1 0x60, 5, 0)] }] })

theorem test_write_complete_mesh :
    sOverMesh.overMesh 0 (tileAddr 1 0x60) = true ∧
    (sOverMesh.queue 0 2).started.findIdx? (sOverMesh.acked 0 2 (sOverMesh.queue 0 2)) = some 0 ∧
    (started0 sOverMesh).out = [(tileAddr 1 0x60, 5, 0)] ∧
    (started0 (after (exec (.rowWriteComplete 0 2) sOverMesh))).out = [] := by decide +kernel

/-! ### Re-arms -/

/-- Queue 2 with a copy running from slot 7 and, if `more`, the one of slot 6 before it; nothing is released. -/
def rearming (more : Bool) (sh : Option (Nat × Nat)) (u : Queue) : Queue :=
  let st (i : Nat) : Started := { started0 sReads with index := i }
  { u with unstarted := 0, rel := [], started := if more then [st 6, st 7] else [st 7], shadow := sh }

/-- A str.go that releases all eight slots of the ring, whose slot 7 holds `dMatch`. -/
def sRearm (compat : Bool) (f : Queue → Queue) : State :=
  running compat (let x := opBits 0x60 [(16, 3, 2), (19, 16, 8)]; if compat then cbundle x else bundle1 x)
    (fun t => { t with rows := t.rows ++ [(0x100, row (dMatch <<< 3584))], queues := [(2, f queue2)] })

def isRearm (s : State) : Bool :=
  (s.queue 0 2).owner == none && (s.queue 0 2).ringSlots == 8 && (s.queue 0 2).cancelling == none &&
  (s.queue 0 2).rearmed 8 == [7] && (s.queue 0 2).unstarted == 0 && (s.tile 0).cleanAt 0x100

theorem test_str_go_rearms :
    let s := sRearm false (rearming false none)
    (Issues s 0 0 false 0 (launch false) (opOf s) ∧ (opOf s).code = 0x60) ∧ isRearm s = true ∧ (s.queue 0 2).shadow = none ∧
    ((after (exec (.strGo 0 0) s)).queue 0 2).shadow = some (7, dMatch) ∧
    ((after (exec (.strGo 0 0) s)).queue 0 2).unstarted = 8 := ⟨issues_of (by decide +kernel), by decide +kernel⟩

theorem test_str_go_shadow_full :
    let s := sRearm false (rearming false (some (7, 5)))
    (Issues s 0 0 false 0 (launch false) (opOf s) ∧ (opOf s).code = 0x60) ∧ isRearm s = true ∧
    (s.queue 0 2).shadow ≠ none ∧ s.boot.phase = 5 ∧ s.counter 0x0F01 0 = 0 ∧
    ((after (exec (.strGo 0 0) s)).queue 0 2).shadow = some (7, 5) ∧ (after (exec (.strGo 0 0) s)).counter 0x0F01 0 = 1 :=
  ⟨issues_of (by decide +kernel), by decide +kernel⟩

theorem test_c_sgo_two_rearms :
    let s := sRearm true (rearming true none)
    (Issues s 0 0 true 0 (launch true) (opOf s) ∧ (opOf s).code = 0x60) ∧ (s.queue 0 2).owner = none ∧
    (s.queue 0 2).ringSlots = 8 ∧ (s.queue 0 2).cancelling = none ∧ 1 < ((s.queue 0 2).rearmed 8).length ∧
    s.boot.phase = 5 ∧ s.counter 0x0F01 0 = 0 ∧ (after (exec (.cSgo 0 0) s)).counter 0x0F01 0 = 1 :=
  ⟨issues_of (by decide +kernel), by decide +kernel⟩

def goAllCmd : Cmd := command 0x0502 (args [(10, 0), (3, 2), (16, 8)]) []
def sGoAll (f : Queue → Queue) : State :=
  asks { device with tiles := [(0, { Tile.reset with rows := [(0x100, row (dMatch <<< 3584))], queues := [(2, f queue2)] })] } goAllCmd

theorem test_stream_go_rearms :
    let s := sGoAll (rearming false none)
    Starts s 4 0x0502 goAllCmd ∧ s.namedTile (goAllCmd.arg 0) = some 0 ∧ goAllCmd.arg 1 = 2 ∧ goAllCmd.arg 2 = 8 ∧
    isRearm s = true ∧ (s.queue 0 2).shadow = none ∧
    ((after (exec (.streamGo 4) s)).queue 0 2).shadow = some (7, dMatch) :=
  ⟨starts_of (by decide +kernel), by decide +kernel⟩

theorem test_stream_go_shadow_full :
    let s := sGoAll (rearming false (some (7, 5)))
    Starts s 4 0x0502 goAllCmd ∧ isRearm s = true ∧ (s.queue 0 2).shadow ≠ none ∧ s.boot.phase = 5 ∧ s.counter 0x0F01 0 = 0 ∧
    (reply (after (exec (.streamGo 4) s))).map (fun r => r.1) = some stShadowFull ∧
    (after (exec (.streamGo 4) s)).counter 0x0F01 0 = 1 :=
  ⟨starts_of (by decide +kernel), by decide +kernel⟩

/-! ### Cancellation -/

def sCancel (compat : Bool) (f : Queue → Queue) : State :=
  running compat (let x := opBits 0x61 [(16, 3, 2)]; if compat then cbundle x else bundle1 x)
    (fun t => { t with queues := [(2, f queue2)] })

def idleQueue (u : Queue) : Queue := { u with unstarted := 0, rel := [] }

theorem test_str_cancel :
    (Issues (sCancel false id) 0 0 false 0 (launch false) (opOf (sCancel false id)) ∧ (opOf (sCancel false id)).code = 0x61) ∧
    ((sCancel false id).queue 0 2).owner = none ∧ ((sCancel false id).queue 0 2).ringSlots ≠ 0 ∧
    ((sCancel false id).queue 0 2).unstarted = 1 ∧ ((sCancel false id).queue 0 2).cancelling = none ∧
    ((sCancel false id).queue 0 2).started = [] ∧
    (after (exec (.strCancel 0 0) (sCancel false id))).queueState 0 2 = 6 ∧
    ((sCancel false idleQueue).queue 0 2).unstarted = 0 ∧
    ((after (exec (.strCancel 0 0) (sCancel false idleQueue))).tile 0).flights = [] :=
  ⟨issues_of (by decide +kernel), by decide +kernel⟩

theorem test_str_cancel_waits :
    (Issues (sCancel false cancels) 0 0 false 0 (launch false) (opOf (sCancel false cancels)) ∧
      (opOf (sCancel false cancels)).code = 0x61) ∧
    ((sCancel false cancels).queue 0 2).cancelling ≠ none ∧
    ((after (exec (.strCancel 0 0) (sCancel false cancels))).queue 0 2).behind = [.cancel .op] :=
  ⟨issues_of (by decide +kernel), by decide +kernel⟩

theorem test_c_scancel :
    (Issues (sCancel true id) 0 0 true 0 (launch true) (opOf (sCancel true id)) ∧ (opOf (sCancel true id)).code = 0x61) ∧
    (after (exec (.cScancel 0 0) (sCancel true id))).queueState 0 2 = 6 := ⟨issues_of (by decide +kernel), by decide +kernel⟩

def cancelCmd : Cmd := command 0x0503 (args [(10, 0), (3, 2)]) []
def sStreamCancel (f : Queue → Queue) : State :=
  asks { device with tiles := [(0, { Tile.reset with queues := [(2, f queue2)] })] } cancelCmd

theorem test_stream_cancel :
    Starts (sStreamCancel idleQueue) 4 0x0503 cancelCmd ∧ (sStreamCancel idleQueue).namedTile (cancelCmd.arg 0) = some 0 ∧
    cancelCmd.arg 1 = 2 ∧ ((sStreamCancel idleQueue).queue 0 2).owner = none ∧
    ((sStreamCancel idleQueue).queue 0 2).ringSlots ≠ 0 ∧ ((sStreamCancel idleQueue).queue 0 2).unstarted = 0 ∧
    ((sStreamCancel idleQueue).queue 0 2).started = [] ∧ ((sStreamCancel idleQueue).queue 0 2).cancelling = none ∧
    (reply (after (exec (.streamCancel 4) (sStreamCancel idleQueue)))).map (fun r => r.1) = some stOk :=
  ⟨starts_of (by decide +kernel), by decide +kernel⟩

theorem test_stream_cancel_busy :
    Starts (sStreamCancel id) 4 0x0503 cancelCmd ∧ ((sStreamCancel id).queue 0 2).unstarted ≠ 0 ∧
    ((sStreamCancel id).queue 0 2).started = [] ∧ ((sStreamCancel id).queue 0 2).cancelling = none ∧
    (after (exec (.streamCancel 4) (sStreamCancel id))).queueState 0 2 = 6 :=
  ⟨starts_of (by decide +kernel), by decide +kernel⟩

theorem test_stream_cancel_waits :
    Starts (sStreamCancel cancels) 4 0x0503 cancelCmd ∧ ((sStreamCancel cancels).queue 0 2).cancelling ≠ none ∧
    ((after (exec (.streamCancel 4) (sStreamCancel cancels))).queue 0 2).behind = [.cancel (.cmd 4)] :=
  ⟨starts_of (by decide +kernel), by decide +kernel⟩

/-- Queue 2 cancelling with two reads outstanding, and with none. -/
def sCancelling (reads : Bool) : State :=
  let st := started0 sReads
  { sReads with tiles := [(0, { Tile.reset with queues := [(2, { queue2 with
      unstarted := 0, rel := [], cancelling := some ⟨1, .op, 0⟩, started := [if reads then st else { st with reads := 0 }] })] })] }

theorem test_cancel_complete :
    (sCancelling false).phys 0 = some 0 ∧ (sCancelling false).logical 0 = some 0 ∧
    ((sCancelling false).queue 0 2).cancelling.isSome = true ∧ ((sCancelling false).queue 0 2).ringSlots ≠ 0 ∧
    (∀ st ∈ ((sCancelling false).queue 0 2).started, (sCancelling false).acctKey 0 st.desc = none) ∧
    (∀ r, r ≠ 2 → (sCancelling false).queue 0 r = Queue.reset) ∧ ((sCancelling false).queue 0 2).missing = [] ∧
    (∀ st ∈ ((sCancelling false).queue 0 2).started, st.out = []) ∧
    ((after (exec (.cancelComplete 0 2) (sCancelling false))).queue 0 2).lastStatus = stCancelled :=
  ⟨by decide +kernel, by decide +kernel, by decide +kernel, by decide +kernel, by decide +kernel,
    queue_other (by rfl), by decide +kernel, by decide +kernel, by decide +kernel⟩

/-- A str.go that waited behind the cancellation releases from the unchanged HEAD. -/
theorem test_cancel_then_go :
    let s := (sCancelling false).updQueue 0 2 (fun u => { u with behind := [.go 3] })
    (s.queue 0 2).behind = [.go 3] ∧ 3 ≤ (s.queue 0 2).ringSlots ∧
    ((after (exec (.cancelComplete 0 2) s)).queue 0 2).unstarted = 3 ∧
    ((after (exec (.cancelComplete 0 2) s)).queue 0 2).head = (s.queue 0 2).head := by decide +kernel

/-- Where no arbiter stands, the passing of time is that of the clocks. -/
theorem passTime_idle {s : State} (h : s.arbs = []) (d n : Nat) : s.passTime d n = s.pass d n := by
  have e : (s.pass d n).arbs = [] := h
  unfold State.passTime State.settleArbs
  rw [e]
  rfl

theorem test_cancel_timeout :
    (∀ st ∈ ((sCancelling true).queue 0 2).started, (sCancelling true).acctKey 0 st.desc = none) ∧
    (∀ r, r ≠ 2 → (sCancelling true).queue 0 r = Queue.reset) ∧ ((sCancelling true).queue 0 2).missing ≠ [] ∧
    (∀ n, (sCancelling true).passTime 0 n = (sCancelling true).pass 0 n) ∧
    (sCancelling true).boot.phase = 5 ∧ (sCancelling true).counter 0x0F04 0 = 0 ∧
    (after (exec (.cancelTimeout 0 2) (sCancelling true))).counter 0x0F04 0 = 2 :=
  ⟨by decide +kernel, queue_other (by rfl), by decide +kernel,
    passTime_idle (by decide +kernel) 0, by decide +kernel, by decide +kernel,
    by decide +kernel⟩

end Sys2Proof.Tests
end

