-- ==== Sys2Proof/Tests/Commands.lean ====
section
/-! SUPPORT. Commands that Curator runs on tiles and on itself: states that meet the hypotheses of the statements, with values
by hand. -/

namespace Sys2Proof.Tests
open Sys2Proof.Machine
set_option Elab.async false

/-- STATUS, DETAIL and RESULT0 of the answer to a command by I3C. -/
def answer (i : Instr) (s : State) : Option (Nat × Nat × Nat) := (reply (after (exec i s))).map (fun r => (r.1, r.2.1, r.2.2.1))

theorem ok_of {ε α : Type} {r : Except ε α} {x : α} (h : r.toOption = some x) : r = .ok x := by
  cases r with
  | error e => cases h
  | ok y => cases h; rfl

/-! ### sys -/

def cmdNop : Cmd := command 0x0100 0 []
theorem test_sys_nop :
    Starts (asks device cmdNop) 4 0x0100 cmdNop ∧ answer (.sysNop 4) (asks device cmdNop) = some (stOk, 0, 1) :=
  ⟨starts_of (by decide +kernel), by decide +kernel⟩

def cInfoCmd : Cmd := command 0x0101 0 []
theorem test_sys_info :
    Starts (asks device cInfoCmd) 4 0x0101 cInfoCmd ∧ (asks device cInfoCmd).boot.image = some image ∧
    answer (.sysInfo 4) (asks device cInfoCmd) = some (stOk, 0, 0x00B00005) :=
  ⟨starts_of (by decide +kernel), by decide +kernel⟩

def cStatus : Cmd := command 0x0102 0 []
theorem test_sys_status :
    Starts (asks device cStatus) 4 0x0102 cStatus ∧ (asks device cStatus).cur.active = some 30 ∧
    reply (after (exec (.sysStatus 4) (asks device cStatus))) = some (stOk, 0, 30, 31, 0, 0) :=
  ⟨starts_of (by decide +kernel), by decide +kernel⟩

def cBufRead (off : Nat) : Cmd := command 0x0106 (args [(12, off)]) []
def sBufRead (off : Nat) : State := asks { device with cur := { device.cur with buf := [(1, 0xAB <<< 128)] } } (cBufRead off)
theorem test_sys_buf_read :
    Starts (sBufRead 528) 4 0x0106 (cBufRead 528) ∧ (cBufRead 528).arg 0 = 528 ∧
    answer (.sysBufRead 4) (sBufRead 528) = some (stOk, 0, 0xAB) ∧
    answer (.sysBufRead 4) (sBufRead 8) = some (stBadParam, 0, 0) := ⟨starts_of (by decide +kernel), by decide +kernel⟩
theorem test_sys_buf_read_odd : Starts (sBufRead 8) 4 0x0106 (cBufRead 8) := starts_of (by decide +kernel)

def cPower (w : Nat) : Cmd := command 0x0104 (args [(16, w)]) []
theorem test_sys_power :
    Starts (asks device (cPower 9000)) 4 0x0104 (cPower 9000) ∧ (cPower 9000).arg 0 = 9000 ∧
    (after (exec (.sysPower 4) (asks device (cPower 9000)))).power.liveCap = 9000 ∧
    answer (.sysPower 4) (asks device (cPower 1999)) = some (stBadParam, 0, 0) :=
  ⟨starts_of (by decide +kernel), by decide +kernel⟩
theorem test_sys_power_low : Starts (asks device (cPower 1999)) 4 0x0104 (cPower 1999) ∧ (cPower 1999).arg 0 = 1999 :=
  ⟨starts_of (by decide +kernel), by decide +kernel⟩

/-- VCORE of die 4. -/
def cTelemetry : Cmd := command 0x0105 (args [(16, 0x11), (16, 0x3004)]) []
theorem test_sys_telemetry :
    Starts (asks device cTelemetry) 4 0x0105 cTelemetry ∧ telemetryKind (cTelemetry.arg 0) = some 3 ∧
    fld (cTelemetry.arg 1) 12 4 = 3 ∧ (asks device cTelemetry).scopeOf (cTelemetry.arg 1) = .ok (.die 4) :=
  ⟨starts_of (by decide +kernel), by decide +kernel, by decide +kernel, ok_of (by decide +kernel)⟩

def cReset (ty : Nat) : Cmd := command 0x0103 (args [(1, ty)]) []
theorem test_sys_reset :
    (Starts (asks device (cReset 1)) 4 0x0103 (cReset 1) ∧ Starts (asks device (cReset 0)) 4 0x0103 (cReset 0)) ∧
    (cReset 1).arg 0 = 1 ∧ (after (exec (.sysReset 4) (asks device (cReset 1)))).boot.phase = 1 ∧
    (cReset 0).arg 0 = 0 ∧ (after (exec (.sysReset 4) (asks device (cReset 0)))).boot.phase = 2 :=
  ⟨⟨starts_of (by decide +kernel), starts_of (by decide +kernel)⟩, by decide +kernel⟩

/-! ### The random service -/

/-- The example of R251: stream 0x41, index 17925, draw 3. -/
theorem test_draw_counter : drawCounter 0x41 17925 3 = 0x00000041000000000000460500000003 := by decide +kernel

def sRefill : State := { device with tiles := [(0, { Tile.reset with rngNext := [(9, 778)], rngTag := [(9, 5)] })] }
theorem test_rng_refill :
    sRefill.phys 0 = some 0 ∧ Sparse.get 0 (sRefill.tile 0).rngNext 9 ≠ 0 ∧
    ((after (exec (.rngRefill 0 9) sRefill)).tile 0).rngTag = [(9, 778)] := by decide +kernel

def cRngRead : Cmd := command 0x0700 0 []
theorem test_rng_read :
    Starts (asks device cRngRead) 4 0x0700 cRngRead ∧ (asks device cRngRead).resultStatus cRngRead (cRngRead.arg 0) 1 = stOk :=
  ⟨starts_of (by decide +kernel), by decide +kernel⟩

def cRngWrite : Cmd := command 0x0701 (args [(64, 1), (64, 2)]) []
def sRngBusy : State := asks { device with tiles := [(0, { Tile.reset with launch := some (launch false) })] } cRngWrite
theorem test_rng_write :
    (Starts (asks device cRngWrite) 4 0x0701 cRngWrite ∧ Starts sRngBusy 4 0x0701 cRngWrite) ∧
    Sparse.wf Tile.reset (asks device cRngWrite).tiles = true ∧ (asks device cRngWrite).anyLaunch = false ∧
    sRngBusy.anyLaunch = true ∧ answer (.rngWrite 4) sRngBusy = some (stConflict, 0, 0) :=
  ⟨⟨starts_of (by decide +kernel), starts_of (by decide +kernel)⟩, by decide +kernel⟩

/-! ### Settings -/

def setting (k v : Nat) (op : Nat) : Cmd := command op (args [(16, k), (64, v)]) []
def staging : State := { device with set := { device.set with staged := [(keyRamp, some 64)] } }

theorem test_cfg_read :
    let c := command 0x0200 (args [(16, keyRamp)]) []
    Starts (asks staging c) 4 0x0200 c ∧ keyKnown (c.arg 0) = true ∧
    reply (after (exec (.cfgRead 4) (asks staging c))) = some (stOk, 0, (asks staging c).live keyRamp, 0, 64, 0) :=
  ⟨starts_of (by decide +kernel), by decide +kernel⟩

theorem test_cfg_write :
    (Starts (asks device (setting keyRamp 24 0x0201)) 4 0x0201 (setting keyRamp 24 0x0201) ∧
      Starts (asks device (setting keyRamp 23 0x0201)) 4 0x0201 (setting keyRamp 23 0x0201)) ∧
    keyKnown ((setting keyRamp 24 0x0201).arg 0) = true ∧
    (asks device (setting keyRamp 24 0x0201)).keyValueOk ((setting keyRamp 24 0x0201).arg 0) ((setting keyRamp 24 0x0201).arg 1) = true ∧
    (asks device (setting keyRamp 23 0x0201)).keyValueOk ((setting keyRamp 23 0x0201).arg 0) ((setting keyRamp 23 0x0201).arg 1) = false ∧
    (after (exec (.cfgWrite 4) (asks device (setting keyRamp 24 0x0201)))).set.staged = [(keyRamp, some 24)] ∧
    answer (.cfgWrite 4) (asks device (setting keyRamp 23 0x0201)) = some (stBadParam, 16, 0) :=
  ⟨⟨starts_of (by decide +kernel), starts_of (by decide +kernel)⟩, by decide +kernel⟩

def cCommit (g : Nat) : Cmd := command 0x0202 (args [(32, g)]) []
theorem test_cfg_commit :
    (Starts (asks staging (cCommit 1)) 4 0x0202 (cCommit 1) ∧ Starts (asks staging (cCommit 2)) 4 0x0202 (cCommit 2)) ∧
    (cCommit 1).arg 0 = (asks staging (cCommit 1)).set.gen ∧ (asks staging (cCommit 1)).anyLaunch = false ∧
    Sparse.wf none (asks staging (cCommit 1)).set.staged = true ∧ (cCommit 2).arg 0 ≠ (asks staging (cCommit 2)).set.gen ∧
    answer (.cfgCommit 4) (asks staging (cCommit 2)) = some (stStale, 0, 0) :=
  ⟨⟨starts_of (by decide +kernel), starts_of (by decide +kernel)⟩, by decide +kernel⟩

theorem test_cfg_discard :
    let c := command 0x0203 0 []
    Starts (asks staging c) 4 0x0203 c ∧ (after (exec (.cfgDiscard 4) (asks staging c))).set.staged = [] :=
  ⟨starts_of (by decide +kernel), by decide +kernel⟩

/-! ### Apertures -/

def cApAdd : Cmd := command 0x0204 (args [(6, 2), (43, 100), (43, 8)]) []
def cApDel (a : Nat) : Cmd := command 0x0205 (args [(6, a)]) []
/-- Aperture 3 of 8 rows from row 50, with a transfer that writes into it, or none. -/
def apertured (busy : Bool) : State := { device with
  mem := { Memory.reset with apertures := [⟨3, 50, 8⟩] }
  tiles := if busy then [(0, { Tile.reset with queues := [(2, { queue2 with
    started := [{ Started.fresh 0 (sdesc [(64, 64, 2 ^ 61 + 512 * 50), (128, 24, 1)]) none with total := 1, out := [(2 ^ 61 + 512 * 50, 7, 0)] }] })] })] else [] }

theorem test_cfg_aperture_add :
    Starts (asks (apertured false) cApAdd) 4 0x0204 cApAdd ∧ cApAdd.arg 1 = 100 ∧ cApAdd.arg 2 = 8 ∧
    (∀ a ∈ (asks (apertured false) cApAdd).mem.apertures, a.num ≠ cApAdd.arg 0 ∧
      extentsMeet (cApAdd.arg 1) (cApAdd.arg 2) 1 a.base a.rows 1 = false) ∧
    (after (exec (.cfgApertureAdd 4) (asks (apertured false) cApAdd))).mem.apertures.length = 2 :=
  ⟨starts_of (by decide +kernel), by decide +kernel⟩

theorem test_cfg_aperture_del :
    (Starts (asks (apertured false) (cApDel 9)) 4 0x0205 (cApDel 9) ∧ Starts (asks (apertured false) (cApDel 3)) 4 0x0205 (cApDel 3) ∧
      Starts (asks (apertured true) (cApDel 3)) 4 0x0205 (cApDel 3)) ∧
    (∀ a ∈ (asks (apertured false) (cApDel 9)).mem.apertures, a.num ≠ (cApDel 9).arg 0) ∧
    (asks (apertured false) (cApDel 3)).mem.apertures.find? (fun x => x.num == (cApDel 3).arg 0) = some ⟨3, 50, 8⟩ ∧
    (asks (apertured false) (cApDel 3)).apertureBusy ⟨3, 50, 8⟩ = false ∧
    (asks (apertured true) (cApDel 3)).apertureBusy ⟨3, 50, 8⟩ = true ∧
    answer (.cfgApertureDel 4) (asks (apertured false) (cApDel 9)) = some (stOk, 0, 0) ∧
    answer (.cfgApertureDel 4) (asks (apertured false) (cApDel 3)) = some (stOk, 0, 1) ∧
    (after (exec (.cfgApertureDel 4) (asks (apertured true) (cApDel 3)))).mem.leaving = [(⟨3, 50, 8⟩, 4)] :=
  ⟨⟨starts_of (by decide +kernel), starts_of (by decide +kernel), starts_of (by decide +kernel)⟩, by decide +kernel⟩

def cLeaving : Cmd := { cApDel 3 with st := .started, wait := .aperture 3 }
def draining3 : State := asks { device with mem := { Memory.reset with leaving := [(⟨3, 50, 8⟩, 4)] } } cLeaving
theorem test_aperture_drained :
    draining3.mem.leaving.find? (fun e => e.1.num == 3 && !draining3.apertureBusy e.1) = some (⟨3, 50, 8⟩, 4) ∧
    draining3.cmd 4 = some cLeaving ∧ answer (.apertureDrained 3) draining3 = some (stOk, 0, 1) := by decide +kernel

/-! ### Programs -/

def cLoad : Cmd := command 0x0300 (args [(64, 512 * 9), (10, 0), (11, 2), (16, 0x40), (13, 1)]) []
/-- HBM row 9 holds a program row of nops, or one whose first bundle has an opcode of no row. -/
def loading (bad : Bool) : State :=
  asks { device with mem := { Memory.reset with hbm := if bad then [(9, row (bundle1 0xFE))] else [] } } cLoad

theorem test_prog_load :
    Starts (loading false) 4 0x0300 cLoad ∧ decodeAddr (cLoad.arg 0) = some (.hbm 9) ∧ cLoad.arg 4 = 1 ∧ cLoad.arg 3 = 0x40 ∧
    span (cLoad.arg 1) (cLoad.arg 2) = [0, 1] ∧ (loading false).loadable 0 = some 0 ∧ (loading false).loadable 1 = some 1 ∧
    (loading false).running 0 = false ∧ (loading false).running 1 = false ∧ (loading false).tiles = [] ∧
    (loading false).mem.hbmFaults = [] ∧
    ((loading false).loadTiles (.hbm 9) 0x40 1 [0, 1]).2 = none := ⟨starts_of (by decide +kernel), by decide +kernel⟩

theorem test_prog_load_refused :
    Starts (loading true) 4 0x0300 cLoad ∧
    ((loading true).loadTiles (.hbm 9) 0x40 1 [0, 1]).2 = some (stBadOpcode, 0, 0) ∧
    answer (.progLoad 4) (loading true) = some (stBadOpcode, 0, 0) := ⟨starts_of (by decide +kernel), by decide +kernel⟩

def cPut : Cmd := command 0x0301 (args [(10, 1), (16, 0x5FFF)]) (7 :: List.replicate 511 0)
theorem test_prog_put :
    Starts (asks device cPut) 4 0x0301 cPut ∧ cPut.payload.length = 512 ∧ cPut.arg 1 = 0x5FFF ∧
    (asks device cPut).loadable (cPut.arg 0) = some 1 ∧ (asks device cPut).running 1 = false ∧
    Sparse.get 0 ((after (exec (.progPut 4) (asks device cPut))).tile 1).rows 0x5FFF = 7 :=
  ⟨starts_of (by decide +kernel), by decide +kernel⟩

def cCopy : Cmd := command 0x0302 (args [(64, 512 * 9), (64, 512 * 20), (24, 2)]) []
def sProgCopy : State := asks { device with mem := { Memory.reset with hbm := [(9, 5), (10, 6)] } } cCopy
theorem test_prog_copy :
    Starts sProgCopy 4 0x0302 cCopy ∧ decodeAddr (cCopy.arg 0) = some (.hbm 9) ∧ decodeAddr (cCopy.arg 1) = some (.hbm 20) ∧
    cCopy.arg 2 = 2 ∧ sProgCopy.room (.hbm 9) ≥ 2 ∧ sProgCopy.room (.hbm 20) ≥ 2 ∧
    placesMeet (.hbm 9) 2 1 (.hbm 20) 2 1 = false ∧ sProgCopy.mem.hbmFaults = [] ∧
    (after (exec (.progCopy 4) sProgCopy)).mem.hbm = [(9, 5), (10, 6), (20, 5), (21, 6)] :=
  ⟨starts_of (by decide +kernel), by decide +kernel⟩

/-- A launch record (Table 08-11): program row 0x40, list 0 from bundle 0, record rows 0x50 and 0x51, LAUNCH_ID 9. -/
def record9 : Bytes := bytesOfNat 64 (withCrc64 (pack [(0, 16, 0x40), (16, 16, 1), (96, 4, 1), (104, 16, 0x50), (120, 16, 2), (136, 32, 9)]))
def cLaunch (t : Nat) : Cmd := command 0x0303 (args [(10, t), (11, 2)]) record9

theorem test_prog_launch :
    Starts (asks device (cLaunch 0)) 4 0x0303 (cLaunch 0) ∧ (cLaunch 0).payload.length = 64 ∧
    ((asks device (cLaunch 0)).launchFault (natOfBytes record9) [0, 1]).2 = none ∧
    (((after (exec (.progLaunch 4) (asks device (cLaunch 0)))).tile 1).launch.map (fun l => (l.progBase, l.compRow, l.launchId))) =
      some (0x40, 0x50, 9) := ⟨starts_of (by decide +kernel), by decide +kernel⟩

/-- Logical tile 2 is vacant: no tile starts. -/
theorem test_prog_launch_refused :
    Starts (asks device (cLaunch 1)) 4 0x0303 (cLaunch 1) ∧
    ((asks device (cLaunch 1)).launchFault (natOfBytes record9) [1, 2]).2 = some (stNoResource, 0, 2) ∧
    ((after (exec (.progLaunch 4) (asks device (cLaunch 1)))).tile 1).launch = none :=
  ⟨starts_of (by decide +kernel), by decide +kernel⟩

def cCancel (id : Nat) : Cmd := command 0x0304 (args [(10, 0), (11, 1), (32, id)]) []
def sProgCancel (id : Nat) : State := asks (running false 0 id') (cCancel id) where id' (t : Tile) : Tile := t

theorem test_prog_cancel :
    (Starts (sProgCancel 9) 4 0x0304 (cCancel 9) ∧ Starts (sProgCancel 8) 4 0x0304 (cCancel 8)) ∧
    (cCancel 9).arg 1 = 1 ∧ (cCancel 9).arg 2 = 9 ∧ (sProgCancel 9).namedTile 0 = some 0 ∧
    ((sProgCancel 9).tile 0).launch = some (launch false) ∧ (∀ l, l < 4 → (((sProgCancel 9).tile 0).list l).waiting = []) ∧
    (∀ q, q < 8 → ((sProgCancel 9).queue 0 q).owner = none) ∧
    (((after (exec (.progCancel 4) (sProgCancel 9))).tile 0).launch.map (fun l => l.stopping)) = some (some stCancelled) ∧
    answer (.progCancel 4) (sProgCancel 8) = some (stOk, 0, 0) :=
  ⟨⟨starts_of (by decide +kernel), starts_of (by decide +kernel)⟩, by decide +kernel⟩

/-! ### Windows and queues -/

def windowed (w : Window) (c : Cmd) : State := asks { device with tiles := [(1, { Tile.reset with windows := [(1, w)] })] } c
def winCmd (op : Nat) (more : List (Nat × Nat)) (payload : Bytes) : Cmd := command op (args ([(10, 1), (4, 1)] ++ more)) payload

theorem test_win_open :
    let c := winCmd 0x0400 [] (bytesOfNat 32 winEntry)
    Starts (windowed { Window.reset with gen := 4 } c) 4 0x0400 c ∧ c.payload.length = 32 ∧
    (windowed { Window.reset with gen := 4 } c).namedTile (c.arg 0) = some 1 ∧
    (after (exec (.winOpen 4) (windowed { Window.reset with gen := 4 } c))).win 1 1 = window1 :=
  ⟨starts_of (by decide +kernel), by decide +kernel⟩

theorem test_win_close :
    let c := winCmd 0x0401 [] []
    Starts (windowed window1 c) 4 0x0401 c ∧ (windowed window1 c).namedTile (c.arg 0) = some 1 ∧ c.arg 1 = 1 ∧ window1.isOpen = true ∧
    window1.ledger = [] ∧ (after (exec (.winClose 4) (windowed window1 c))).win 1 1 = { Window.reset with gen := 5 } :=
  ⟨starts_of (by decide +kernel), by decide +kernel⟩

theorem test_win_return :
    let c := winCmd 0x0402 [(16, 2)] []
    let w := { window1 with consumed := 3, pool := 0 }
    Starts (windowed w c) 4 0x0402 c ∧ w.isOpen = true ∧ w.ledger = [] ∧ c.arg 2 ≤ w.consumed ∧
    (after (exec (.winReturn 4) (windowed w c))).win 1 1 = { window1 with consumed := 1, pool := 2 } :=
  ⟨starts_of (by decide +kernel), by decide +kernel⟩

theorem test_win_read :
    let c := winCmd 0x0403 [(64, 512 * 7)] []
    Starts (windowed window1 c) 4 0x0403 c ∧ (windowed window1 c).resultStatus c (c.arg 2) 1 = stOk ∧
    Sparse.get 0 (after (exec (.winRead 4) (windowed window1 c))).mem.hbm 7 = row window1.bits :=
  ⟨starts_of (by decide +kernel), by decide +kernel⟩

/-- The companion asks for five credits of three: it takes them, and with WAIT the command stays for the other two. -/
def cCredit (wait : Nat) : Cmd := winCmd 0x0404 [(16, 5), (1, wait)] []
def companionWindow : Window := { window1 with srcMode := 0, srcCount := 1, srcs := [srcCompanion, 0, 0, 0] }

theorem test_win_credit :
    (Starts (windowed companionWindow (cCredit 0)) 4 0x0404 (cCredit 0) ∧
      Starts (windowed companionWindow (cCredit 1)) 4 0x0404 (cCredit 1)) ∧
    (cCredit 0).arg 6 = 0 ∧ (cCredit 0).arg 3 = 0 ∧ (cCredit 1).arg 3 = 1 ∧ (cCredit 1).arg 2 = 5 ∧ companionWindow.pool = 3 ∧
    (windowed companionWindow (cCredit 0)).creditSource (cCredit 0) = .ok (srcCompanion, 0, false) ∧
    companionWindow.isOpen = true ∧ companionWindow.permits 5 srcCompanion = true ∧ companionWindow.entryOf srcCompanion = none ∧
    answer (.winCredit 4) (windowed companionWindow (cCredit 0)) = some (stOk, 0, 3) ∧
    ((after (exec (.winCredit 4) (windowed companionWindow (cCredit 1)))).win 1 1).pool = 0 :=
  ⟨⟨starts_of (by decide +kernel), starts_of (by decide +kernel)⟩, by decide +kernel, by decide +kernel, by decide +kernel,
    by decide +kernel, by decide +kernel, ok_of (by decide +kernel), by decide +kernel⟩

theorem test_stream_qread :
    let c := command 0x0500 (args [(10, 0), (3, 2), (64, 512 * 7)]) []
    Starts (asks (ring 0 id) c) 4 0x0500 c ∧ (asks (ring 0 id) c).namedTile (c.arg 0) = some 0 ∧
    (asks (ring 0 id) c).resultStatus c (c.arg 2) 1 = stOk ∧
    fld (Sparse.get 0 (after (exec (.streamQread 4) (asks (ring 0 id) c))).mem.hbm 7).toNat 0 29 = 0x80100 :=
  ⟨starts_of (by decide +kernel), by decide +kernel⟩

theorem test_stream_qwrite :
    let c := command 0x0501 (args [(10, 0), (3, 3)]) (bytesOfNat 32 (pack [(0, 16, 0x200), (16, 13, 16), (32, 7, 8)]))
    Starts (asks (ring 0 id) c) 4 0x0501 c ∧ c.payload.length = 32 ∧ c.arg 1 = 3 ∧
    (asks (ring 0 id) c).queueWriteStatus 0 (c.arg 1) (natOfBytes c.payload) = stOk ∧
    ((after (exec (.streamQwrite 4) (asks (ring 0 id) c))).queue 0 3).ringSlots = 16 :=
  ⟨starts_of (by decide +kernel), by decide +kernel⟩

/-! ### Counters -/

def counting : State := { device with counters := [(counterKey 0x0101 3, 2), (counterKey 0x0D01 0, 9), (counterKey 0x1601 0, 4)] }

/-- The array counter of tile 0 adds up over its four arrays. -/
theorem test_ctr_read :
    let c := command 0x0800 (args [(32, 0x0101), (16, 0x1000)]) []
    Starts (asks counting c) 4 0x0800 c ∧ counterHome (c.arg 0) = some .array ∧
    (asks counting c).scopeOf (c.arg 1) = .ok (.tile 0) ∧ (Scope.tile 0).instances .array = [0, 1, 2, 3] ∧
    reply (after (exec (.ctrRead 4) (asks counting c))) = some (stOk, 0, 2, 0, 4, 0) :=
  ⟨starts_of (by decide +kernel), by decide +kernel, ok_of (by decide +kernel), by decide +kernel⟩

theorem test_ctr_clear :
    let c := command 0x0802 (args [(32, 0x0D01), (16, 0x1000)]) []
    Starts (asks counting c) 4 0x0802 c ∧ counterHome (c.arg 0) = some .tile ∧
    (asks counting c).scopeOf (c.arg 1) = .ok (.tile 0) ∧ (Scope.tile 0).instances .tile = [0] ∧
    (after (exec (.ctrClear 4) (asks counting c))).counters = [(counterKey 0x0101 3, 2), (counterKey 0x1601 0, 4)] :=
  ⟨starts_of (by decide +kernel), by decide +kernel, ok_of (by decide +kernel), by decide +kernel⟩

theorem test_ctr_clear_all :
    let c := command 0x0802 (args [(32, 0xFFFFFFFF), (16, 0x1000)]) []
    Starts (asks counting c) 4 0x0802 c ∧ c.arg 0 = 0xFFFFFFFF ∧ (asks counting c).scopeOf (c.arg 1) = .ok (.tile 0) ∧
    (∃ e ∈ catalogue, (Scope.tile 0).instances e.2 ≠ []) ∧
    (after (exec (.ctrClear 4) (asks counting c))).counters = [(counterKey 0x1601 0, 4)] :=
  ⟨starts_of (by decide +kernel), by decide +kernel, ok_of (by decide +kernel), by decide +kernel, by decide +kernel⟩

theorem test_ctr_snapshot :
    let c := command 0x0801 (args [(16, 0x1000), (64, 512 * 7)]) []
    Starts (asks counting c) 4 0x0801 c ∧ (asks counting c).scopeOf (c.arg 0) = .ok (.tile 0) ∧
    (asks counting c).resultStatus c (c.arg 1) 2 = stOk ∧
    answer (.ctrSnapshot 4) (asks counting c) = some (stOk, 0, 2) :=
  ⟨starts_of (by decide +kernel), ok_of (by decide +kernel), by decide +kernel⟩

end Sys2Proof.Tests
end

