-- ==== Sys2Proof/Tests/Crossings.lean ====
section
/-! SUPPORT. Windows, credits, arbiters, banks and clocks: states that meet the hypotheses of the statements, with values by
hand. -/

namespace Sys2Proof.Tests
open Sys2Proof.Machine
set_option Elab.async false

/-! ### Windows and credits -/

/-- Tile 1 owns window 1, four rows from 0x200 with three credits; `m` is on the mesh. -/
def owner (w : Window) (m : List Mesh) : State :=
  { device with tiles := [(1, { Tile.reset with windows := [(1, w)] })], mesh := m }

/-- Tile 0 asks for five credits with WAIT. -/
def sRequest : State := owner window1 [.request 1 1 5 true false 0]

theorem test_credit_request :
    sRequest.mesh[0]? = some (.request 1 1 5 true false 0) ∧ sRequest.phys 1 = some 1 ∧ sRequest.logical 1 = some 1 ∧
    (sRequest.win 1 1).isOpen = true ∧ (sRequest.win 1 1).permits sRequest.house (srcWord 0 sRequest.house) = true ∧
    (sRequest.win 1 1).entryOf (srcWord 0 sRequest.house) = none ∧ (sRequest.win 1 1).ledger.length < 8 ∧
    min 5 (sRequest.win 1 1).pool = 3 ∧
    (after (exec (.creditRequest 0) sRequest)).mesh = [.grant 0 1 1 false stOk 5 4 3 2] := by decide +kernel

def account (gen : Nat) (known : Bool) : Account :=
  { house := 5, tile := 1, curator := false, window := 1, gen := gen, rows := 4, sent := 7, held := 2, pending := 5,
    known := known, tallyOut := false }

/-- A grant of three reaches tile 0, whose account knows generation 5, generation 4, or none yet. -/
def sGrant (gen : Nat) (known : Bool) : State :=
  { device with
    tiles := [(0, { Tile.reset with accounts := [account gen known] })]
    mesh := [.grant 0 1 1 false stOk 5 4 3 2] }

def heldAfter (s : State) : Option (Nat × Nat) :=
  ((after (exec (.creditGrant 0) s)).tile 0).accounts.head?.map (fun a => (a.held, a.sent))

theorem test_credit_grant :
    ((sGrant 5 true).mesh[0]? = some (.grant 0 1 1 false stOk 5 4 3 2) ∧ (sGrant 5 true).phys 0 = some 0 ∧
      (((sGrant 5 true).tile 0).acct ⟨(sGrant 5 true).house, 1, false, 1⟩).isSome = true) ∧
    (∀ q, (sGrant 5 true).queue 0 q = Queue.reset) ∧ (∀ q, (sGrant 4 true).queue 0 q = Queue.reset) ∧
    (∀ q, (sGrant 0 false).queue 0 q = Queue.reset) ∧
    heldAfter (sGrant 5 true) = some (5, 7) ∧ heldAfter (sGrant 4 true) = some (3, 0) ∧
    (heldAfter (sGrant 0 false)).map (fun x => x.1) = some 3 :=
  ⟨by decide +kernel, queue_none rfl, queue_none rfl, queue_none rfl, by decide +kernel⟩

/-- A window entry that source `src` holds two credits of. -/
def window1Held (src : Nat) : Window :=
  { window1 with
    pool := 1
    ledger := [⟨src, 2, 0, 0, .none, 0, 0, false⟩] }

def sArrive : State := owner (window1Held (srcWord 0 5)) [.row 0 2 1 false (some 1) false 5 3 40 99]

theorem test_window_row_arrival :
    sArrive.phys 1 = some 1 ∧ (sArrive.win 1 1).isOpen = true ∧
    (sArrive.win 1 1).permits sArrive.house (srcWord 0 sArrive.house) = true ∧
    ((sArrive.win 1 1).entryOf (srcWord 0 sArrive.house)).map (fun e => e.held) = some 2 ∧ 3 < (sArrive.win 1 1).rows ∧
    (sArrive.tile 1).progRow 0x203 = false ∧
    ((sArrive.win 1 1).ledger.filter (fun f => f.src == srcWord 0 sArrive.house)).length = 1 ∧
    sArrive.mesh[0]? = some (.row 0 2 1 false (some 1) false (sArrive.win 1 1).gen 3 40 99) ∧
    Sparse.get 0 ((after (exec (.windowRowArrival 0) sArrive)).tile 1).rows 0x203 = 99 ∧
    ((after (exec (.windowRowArrival 0) sArrive)).tile 1).signal 9 = 1 ∧
    ((after (exec (.windowRowArrival 0) sArrive)).win 1 1).consumed = 1 ∧
    ((after (exec (.windowRowArrival 0) sArrive)).win 1 1).due = 40 := by decide +kernel

/-- The companion as the source: its word stands in SRC. -/
def sWwr : State := owner { window1Held srcCompanion with srcMode := 0, srcCount := 1, srcs := [srcCompanion, 0, 0, 0] } []

theorem test_arcade_wwr :
    sWwr.arc.linkUp = true ∧ (sWwr.win 1 1).isOpen = true ∧ (sWwr.win 1 1).permits sWwr.house srcCompanion = true ∧
    ((sWwr.win 1 1).entryOf srcCompanion).map (fun e => e.held) = some 2 ∧ (sWwr.tile 1).progRow 0x200 = false ∧
    ((sWwr.win 1 1).ledger.filter (fun f => f.src == srcCompanion)).length = 1 ∧
    Sparse.get 0 ((after (exec (.arcadeWwr 1 1 5 0 99) sWwr)).tile 1).rows 0x200 = 99 := by decide +kernel

/-- Dropped: the window is closed, the generation is stale, the source is not permitted, no credit is held. -/
theorem test_row_dropped :
    sWwr.boot.phase = 5 ∧ (sWwr.win 1 0).isOpen = false ∧
    (after (exec (.arcadeWwr 1 0 0 0 99) sWwr)).counter 0x0E04 1 = 1 ∧
    (after (exec (.arcadeWwr 1 1 4 0 99) sWwr)).counter 0x0E05 1 = 1 ∧
    (sArrive.win 1 1).permits sArrive.house srcCompanion = false ∧
    (after (exec (.arcadeWwr 1 1 5 0 99) sArrive)).counter 0x0E06 1 = 1 ∧
    (let s := owner { window1 with srcMode := 0, srcCount := 1, srcs := [srcCompanion, 0, 0, 0] } []
     (s.win 1 1).permits s.house srcCompanion = true ∧ (s.win 1 1).entryOf srcCompanion = none ∧
     (after (exec (.arcadeWwr 1 1 5 0 99) s)).counter 0x0E07 1 = 1) := by decide +kernel

/-- Tile 1 with a launch whose program begins at row 0x203, and row `m` on the mesh for its window 1. -/
def sMeshRow (win : Option Nat) (byRow : Bool) (gen off : Nat) : State :=
  let s := owner (window1Held (srcWord 0 5)) [.row 0 2 1 false win byRow gen off 40 99]
  s.updTile 1 (fun t => { t with launch := some { launch false with progBase := 0x203, progRows := 1 } })

/-- What the statement asks of the state, with the window and the credit in order. -/
def bringsRow (s : State) : Bool :=
  s.owner 1 false == some 1 && s.house == 5 && s.boot.phase == 5 && (s.win 1 1).isOpen && (s.win 1 1).gen == 5 &&
  (s.win 1 1).permits s.house (srcWord 0 5) && ((s.win 1 1).entryOf (srcWord 0 5)).map (fun e => e.held) == some 2 &&
  ((s.win 1 1).ledger.filter (fun f => f.src == srcWord 0 5)).length == 1

theorem brings_mesh {s : State} {win : Option Nat} {byRow : Bool} {gen off : Nat} {x : Row}
    (h : s.mesh = [.row 0 2 1 false win byRow gen off 40 x]) (o : s.owner 1 false = some 1) :
    Brings s (.windowRowArrival 0) 1 ⟨win, byRow, srcWord 0 s.house, gen, off, x⟩ [] :=
  .inl ⟨0, 0, 2, 1, false, 40, rfl, by rw [h]; rfl, rfl, rfl, o, by rw [h]; rfl⟩

/-- Of the mesh: no window named; outside the window's four rows by offset and by row; a program row, whose credit comes back. -/
theorem test_mesh_row_dropped :
    (let s := sMeshRow none true 5 0x200
     bringsRow s = true ∧ Brings s (.windowRowArrival 0) 1 ⟨none, true, srcWord 0 s.house, 5, 0x200, 99⟩ [] ∧
     (after (exec (.windowRowArrival 0) s)).counter 0x0E03 1 = 1) ∧
    (let s := sMeshRow (some 1) false 5 4
     bringsRow s = true ∧ Brings s (.windowRowArrival 0) 1 ⟨some 1, false, srcWord 0 s.house, 5, 4, 99⟩ [] ∧
     (after (exec (.windowRowArrival 0) s)).counter 0x0E08 1 = 1 ∧ ((after (exec (.windowRowArrival 0) s)).win 1 1).pool = 2) ∧
    (let s := sMeshRow (some 1) true 5 0x1FF
     bringsRow s = true ∧ (after (exec (.windowRowArrival 0) s)).counter 0x0E08 1 = 1) ∧
    (let s := sMeshRow (some 1) false 5 3
     bringsRow s = true ∧ (s.tile 1).progRow 0x203 = true ∧ (after (exec (.windowRowArrival 0) s)).counter 0x0B01 1 = 1 ∧
     ((after (exec (.windowRowArrival 0) s)).win 1 1).pool = 2 ∧
     ((after (exec (.windowRowArrival 0) s)).win 1 1).consumed = 0 ∧
     (((after (exec (.windowRowArrival 0) s)).win 1 1).entryOf (srcWord 0 5)).map (fun e => e.held) = some 1) ∧
    (let s := sMeshRow (some 1) false 4 3
     bringsRow s = true ∧ (after (exec (.windowRowArrival 0) s)).counter 0x0E05 1 = 1 ∧
     ((after (exec (.windowRowArrival 0) s)).win 1 1).pool = 1) :=
  ⟨⟨by decide +kernel, brings_mesh rfl (by decide +kernel), by decide +kernel⟩,
    ⟨by decide +kernel, brings_mesh rfl (by decide +kernel), by decide +kernel⟩, by decide +kernel, by decide +kernel,
    by decide +kernel⟩

/-- Tile 2046 is in no map: a row for it is dropped before the checks. -/
theorem test_vacant_row_dropped :
    (let s := { sWwr with mesh := [.row 0 2 2046 false (some 1) false 5 0 40 99] }
     s.phys 2046 = none ∧ s.arc.linkUp = true ∧ s.boot.phase = 5 ∧ s.counter 0x0E09 0 = 0 ∧
     (after (exec (.arcadeWwr 2046 1 5 0 99) s)).counter 0x0E09 0 = 1 ∧
     (after (exec (.windowRowArrival 0) s)).counter 0x0E09 0 = 1) := by decide +kernel

/-! ### Arbiters -/

def chan : ResId := .hbm 0

def req (classP lock unlock : Bool) (deadline source order : Nat) : Req :=
  { classP := classP, headP := classP, deadline := deadline, overdue := false, lock := lock, unlock := unlock, emerg := false,
    refresh := false, source := source,
    order := order, result := false, control := false, first := false, leg := .first, read := false, counted := false }

/-- A weight loader's write-side access, of 16 ns (Table 12-3), by source 3; and the debug port's. -/
def ask (lock : Bool) : ReqEntry := .first .operand false lock false 3
def askDebug : ReqEntry := .first .debug false false false 4

/-- Debug is open: the debug port is an emergency requester. -/
def arbiterAt (r : ResId) (a : Arb) : State :=
  { device with arbs := [(r, a)], fuses := { Fuses.reset with debug := true } }
def arbiter (a : Arb) : State := arbiterAt chan a

def heldBy (r : ResId) (classP : Bool) : State :=
  arbiterAt r { Arb.reset with holder := some (req classP false false 500 1 0), next := 1 }
def holding (classP : Bool) : State := heldBy chan classP
/-- Source 1 holds the channel and its lock since reading `c`. -/
def unlockingAt (c : Nat) : State :=
  arbiter { Arb.reset with holder := some (req false true false 500 1 0), locked := some 1, since := some c, next := 1 }

/-- An arbiter whose watchdog does not run has none that is due; one that started at 0 has none due at 16. -/
theorem noBite_idle {s : State} {r : ResId} {c : Nat} (h : s.live (watchdogKey r) < 65536)
    (i : (s.arb r).since = none ∧ (s.arb r).outer = none) : NoBite s r c :=
  ⟨h, fun w k => by rw [i.1, i.2] at k; simp at k⟩

theorem chan_limit : device.live (watchdogKey chan) < 65536 := by decide +kernel

theorem test_no_bite :
    (∀ c, NoBite device chan c) ∧ (∀ b c, NoBite (holding b) chan c) ∧
    NoBite (unlockingAt 0) chan 16 ∧ untilReading 1024 (1024 * (0 / 1024 + device.live (watchdogKey chan) + 1)) ≠ 0 :=
  ⟨fun _ => noBite_idle chan_limit ⟨rfl, rfl⟩, fun _ _ => noBite_idle chan_limit ⟨rfl, rfl⟩,
    ⟨chan_limit, fun w h => by
      rcases h with h | h
      · cases h; decide +kernel
      · cases h⟩, by decide +kernel⟩

/-- Alone at a free channel, with LOCK: the deadline is the reading and the budget. -/
theorem test_arbiter_alone :
    (device.arrive chan (ask true)).isSome = true ∧
    (device.arb chan).holder = none ∧ (device.arb chan).pending = [] ∧ (device.arb chan).locked = none ∧
    (let a := (after (exec (.arbiterRequest chan (ask true)) device)).arb chan
     a.holder = some (req false true false 16 3 0) ∧ a.locked = some 3 ∧ a.since = some 0) := by decide +kernel

/-- Behind a class L holder, and behind a lock of source 1. -/
theorem test_arbiter_parks :
    ((holding false).arb chan).holder = some (req false false false 500 1 0) ∧ ((holding false).arb chan).pending = [] ∧
    ((after (exec (.arbiterRequest chan (ask false)) (holding false))).arb chan).pending = [req false false false 16 3 1] ∧
    (let s := arbiter { Arb.reset with locked := some 1, since := some 0 }
     (s.arb chan).locked = some 1 ∧
     ((after (exec (.arbiterRequest chan (ask false)) s)).arb chan).pending = [req false false false 16 3 0]) := by decide +kernel

/-- With 16 parked a request waits outside, and is counted. -/
theorem test_arbiter_full :
    let s := arbiter { Arb.reset with
      holder := some (req false false false 500 1 0)
      pending := (List.range 16).map (fun i => req false false false 600 2 (i + 1))
      next := 17 }
    16 ≤ (s.arb chan).pending.length ∧ s.boot.phase = 5 ∧ s.resDie chan = 0 ∧ s.counter 0x1301 0 = 0 ∧
    ((after (exec (.arbiterRequest chan (ask false)) s)).arb chan).outside = [req false false false 16 3 17] ∧
    (after (exec (.arbiterRequest chan (ask false)) s)).counter 0x1301 0 = 1 := by decide +kernel

theorem test_arbiter_preempts :
    ((holding true).arb chan).holder = some (req true false false 500 1 0) ∧ manyBeats chan = true ∧
    ((holding true).arb chan).pending = [] ∧ ((holding true).arb chan).locked = none ∧ (holding true).resDie chan = 0 ∧
    (req false false false 16 3 1).outranks (req true false false 500 1 0) = true ∧
    (holding true).boot.phase = 5 ∧ (holding true).counter 0x1302 0 = 0 ∧
    (let u := after (exec (.arbiterRequest chan (ask false)) (holding true))
     (u.arb chan).holder = some (req false false false 16 3 1) ∧ (u.arb chan).pending = [req true false false 500 1 0] ∧
     u.counter 0x1302 0 = 1) := by decide +kernel

def crossing : ResId := .xing 2 3 true

/-- The debug port displaces a class L transfer at a crossing; without the debug fuse it makes no request. -/
theorem test_arbiter_emergency :
    ((heldBy crossing false).arb crossing).holder = some (req false false false 500 1 0) ∧ manyBeats crossing = true ∧
    (let u := after (exec (.arbiterRequest crossing askDebug) (heldBy crossing false))
     ((u.arb crossing).holder.map (fun q => (q.emerg, q.source))) = some (true, 4) ∧
     (u.arb crossing).resume = some (req false false false 500 1 0)) ∧
    device.fuses.debug = false ∧ after (exec (.arbiterRequest crossing askDebug) device) = device :=
  ⟨by decide +kernel, by decide +kernel, by decide +kernel, by decide +kernel, rfl⟩

/-- A control frame at a port's egress waits for the frame in progress only: not behind 16 pending ones, nor another source's lock. -/
def egress : ResId := .cwy 3
def sEgress : State :=
  arbiterAt egress { Arb.reset with
    holder := some (req false true false 500 1 0)
    locked := some 1
    pending := (List.range 16).map (fun i => req false false false 600 2 (i + 1))
    next := 17 }

theorem test_control_first :
    (sEgress.arrive egress (.first .control false false false 5)).any (fun e => e.1.first && !e.1.result && !e.1.emerg) = true ∧
    ((sEgress.arb egress).holder.map (fun q => (q.classP, q.emerg))) = some (false, false) ∧
    (let u := after (exec (.arbiterRequest egress (.first .control false false false 5)) sEgress)
     (u.arb egress).pending.length = 17 ∧ (u.arb egress).outside = [] ∧
     (((after (exec (.arbiterRelease egress) u)).arb egress).holder.map (fun q => q.source)) = some 5) := by decide +kernel

/-- An array's result write waits outside the pending queue, and is served first. -/
def accBank : ResId := .bank (.acc 0 1 2)

theorem test_result_write :
    ((heldBy accBank false).arb accBank).holder = some (req false false false 500 1 0) ∧
    (let u := after (exec (.arbiterRequest accBank (.first .result false false false 6)) (heldBy accBank false))
     (u.arb accBank).pending = [] ∧ (u.arb accBank).results.map (fun q => q.source) = [6] ∧
     (((after (exec (.arbiterRelease accBank) u)).arb accBank).holder.map (fun q => q.source)) = some 6) := by decide +kernel

/-- A read that has crossed to die 2 with 40 ns left and class P. -/
def sTransit : State := { device with
  transit := [⟨⟨true, 40, false, false, false, false, 7⟩, none, true, .onward, false⟩] }

theorem test_request_crosses :
    sTransit.transit[0]? = some ⟨⟨true, 40, false, false, false, false, 7⟩, none, true, .onward, false⟩ ∧
    (let u := after (exec (.arbiterRequest chan (.crossed 0)) sTransit)
     (u.arb chan).holder = some { req true false false 40 7 0 with read := true, leg := .onward } ∧ u.transit = [] ∧
     (after (exec (.arbiterRelease chan) u)).transit.map (fun x => (x.leg, x.deadline)) = [(.back, some 40)]) ∧
    (let u := after (exec (.arbiterRequest crossing (ask false)) device)
     ((after (exec (.arbiterRelease crossing) u)).transit.map (fun x => (x.hdr.remain, x.deadline))) = [(16, none)]) := by
  decide +kernel

/-- The queue works on a descriptor of CLASS P and BUDGET 1000: its read has both. -/
def sStreamRead : State :=
  let d := pack [(240, 24, 1000), (289, 1, 1)]
  { device with tiles := [(0, { Tile.reset with queues := [(2, { queue2 with started := [Started.fresh 0 d none] })] })] }

theorem test_stream_request :
    sStreamRead.phys 0 = some 0 ∧ ((sStreamRead.queue 0 2).started.map (fun st => st.desc)) = [pack [(240, 24, 1000), (289, 1, 1)]] ∧
    sStreamRead.entryOf (.stream 0 2 0) true = some (dClass (pack [(240, 24, 1000), (289, 1, 1)]), dBudget (pack [(240, 24, 1000), (289, 1, 1)])) := by
  decide +kernel

theorem test_hbm_refresh :
    ((holding false).arb chan).holder = some (req false false false 500 1 0) ∧ ((holding false).arb chan).pending = [] ∧
    ((after (exec (.hbmRefresh 0) (holding false))).arb chan).resume = some (req false false false 500 1 0) ∧
    (((after (exec (.hbmRefresh 0) device)).arb chan).holder.map (fun q => q.emerg)) = some true := by decide +kernel

/-- A refresh takes the channel from the debug port after the beat in progress (R276). -/
theorem test_refresh_debug :
    let h : Req := { req false false false 500 4 0 with emerg := true }
    let s := arbiter { Arb.reset with holder := some h, next := 1 }
    (s.arb chan).holder = some h ∧ h.refresh = false ∧ (s.arb chan).pending = [] ∧
    ((after (exec (.hbmRefresh 0) s)).arb chan).resume = some h ∧
    (((after (exec (.hbmRefresh 0) s)).arb chan).holder.map (fun q => q.refresh)) = some true := by decide +kernel

/-- A displaced transfer resumes, after an emergency requester that waits; the last holder leaves the channel free; UNLOCK ends
the lock; the pending one is granted. -/
def resuming (pend : List Req) : State :=
  arbiter { Arb.reset with
    holder := some { req false false false 0 0 1 with emerg := true }
    resume := some (req false false false 500 1 0)
    pending := pend
    next := 3 }
def unlocking (pend : List Req) : State :=
  arbiter { Arb.reset with holder := some (req false false true 500 1 0), locked := some 1, pending := pend, next := 2 }

/-- The release of the channel in a state: holder, lock and watchdog afterwards. -/
def released (s : State) : Option Req × Option Nat × Option Nat :=
  let a := (after (exec (.arbiterRelease chan) s)).arb chan
  (a.holder, a.locked, a.since)

theorem test_arbiter_release :
    (((resuming []).arb chan).holder.isSome = true ∧ ((resuming []).arb chan).results = [] ∧
      ((resuming []).arb chan).resume = some (req false false false 500 1 0) ∧
      (released (resuming [])).1 = some (req false false false 500 1 0)) ∧
    (let q := { req false false false 700 5 2 with emerg := true }
     ((resuming [q]).arb chan).pending = [q] ∧ ((resuming [q]).arb chan).outside = [] ∧ (released (resuming [q])).1 = some q) ∧
    (((unlocking []).arb chan).holder = some (req false false true 500 1 0) ∧ ((unlocking []).arb chan).locked = some 1 ∧
      ((unlocking []).arb chan).resume = none ∧ ((unlocking []).arb chan).pending = [] ∧
      released (unlocking []) = (none, none, none)) ∧
    (let s := unlocking [req true false false 9 2 1]
     (s.arb chan).resume = none ∧ (s.arb chan).pending = [req true false false 9 2 1] ∧ (s.arb chan).outside = [] ∧
     (released s).1 = some (req true false false 9 2 1)) := by decide +kernel

/-- A release at the limit is bitten: the lock and the grant end, and the notice stands. -/
theorem test_release_bitten :
    let s := { unlockingAt 0 with clocks := [(0, { Clock.reset with count := 1024 * (device.live (watchdogKey chan) + 1) })] }
    (s.arb chan).holder = some (req false true false 500 1 0) ∧ (s.arb chan).since = some 0 ∧ (s.arb chan).results = [] ∧
    s.arbs = [(chan, s.arb chan)] ∧ (s.arb chan).outer = none ∧ (s.arb chan).pending = [] ∧ (s.arb chan).resume = none ∧
    untilReading (s.clock 0).count (1024 * (0 / 1024 + s.live (watchdogKey chan) + 1)) = 0 ∧ s.boot.phase = 5 ∧
    s.counter 0x1304 0 = 0 ∧ (Config.sourceTile 1 = none → s.resDie chan = 0) := by
  refine ⟨?_, ?_, ?_, ?_, ?_, ?_, ?_, ?_, ?_, ?_, fun _ => ?_⟩ <;> decide +kernel

/-- The deadline of a pending request, 9, passes: behind a class L holder it waits on, overdue; a class P transfer gives way. -/
theorem test_deadline_passed :
    (let s := unlocking [req true false false 9 2 1]
     (s.arb chan).pending[0]? = some (req true false false 9 2 1) ∧
     (let u := after (exec (.deadlinePassed chan 0) s)
      (u.arb chan).pending = [{ req true false false 9 2 1 with overdue := true }] ∧ (u.clock 0).count = 9)) ∧
    (let s := arbiter { Arb.reset with holder := some (req true false false 5 1 0), pending := [req false false false 9 2 1], next := 2 }
     let c := ((s.clock 0).count + untilDeadline (s.clock 0).count 9) % 2 ^ 48
     (s.arb chan).pending = [req false false false 9 2 1] ∧ (s.arb chan).outside = [] ∧ (s.arb chan).locked = none ∧
     (Req.lapse c (req true false false 5 1 0)).outranks (Req.lapse c (req false false false 9 2 1)) = true) ∧
    (let s := arbiter { Arb.reset with holder := some (req true false false 500 1 0), pending := [req false false false 600 2 1], next := 2 }
     let c := ((s.clock 0).count + untilDeadline (s.clock 0).count 600) % 2 ^ 48
     (Req.lapse c (req false false false 600 2 1)).outranks (Req.lapse c (req true false false 500 1 0)) = false) ∧
    (let s := arbiter { Arb.reset with holder := some (req true false false 500 1 0), pending := [req false false false 9 2 1], next := 2 }
     let c := ((s.clock 0).count + untilDeadline (s.clock 0).count 9) % 2 ^ 48
     (Req.lapse c (req false false false 9 2 1)).outranks (Req.lapse c (req true false false 500 1 0)) = true ∧
     s.boot.phase = 5 ∧ s.counter 0x1302 0 = 0 ∧
     (let u := after (exec (.deadlinePassed chan 0) s)
      ((u.arb chan).holder.map (fun q => q.source)) = some 2 ∧ (u.arb chan).pending = [req true false false 500 1 0] ∧
      u.counter 0x1302 0 = 1)) := by decide +kernel

/-- The holder of source 1 is bitten. The tile that the source names is open: whichever it is, a launch runs there. -/
def bitten (pend : List Req) : State :=
  let s := arbiter { Arb.reset with holder := some (req false false false 500 1 0), locked := some 1, since := some 0, pending := pend }
  match Config.sourceTile 1 with
  | none => s
  | some p => { s with tiles := [(p, { Tile.reset with launch := some (launch false), lists := [(0, { WorkList.reset with enabled := true })] })] }

theorem test_watchdog_bite (pend : List Req) :
    ((bitten pend).arb chan).holder = some (req false false false 500 1 0) ∧ ((bitten pend).arb chan).pending = pend ∧
    ((bitten pend).arb chan).since = some 0 ∧ ((bitten pend).arb chan).results = [] ∧ ((bitten pend).arb chan).outside = [] ∧
    ((bitten pend).arb chan).resume = none ∧ (bitten pend).resDie chan = 0 ∧ (bitten pend).boot.phase = 5 ∧
    (bitten pend).counter 0x1304 0 = 0 ∧
    (∀ p, Config.sourceTile 1 = some p → ((bitten pend).tile p).launch = some (launch false) ∧ (launch false).stopping = none ∧
      (∀ l, l < 4 → (((bitten pend).tile p).list l).waiting = []) ∧ ∀ q, ((bitten pend).queue p q).owner = none) := by
  unfold bitten
  cases Config.sourceTile 1 with
  | none => exact ⟨rfl, rfl, rfl, rfl, rfl, rfl, rfl, rfl, rfl, fun p h => by cases h⟩
  | some p =>
    refine ⟨rfl, rfl, rfl, rfl, rfl, rfl, rfl, rfl, rfl, fun r h => ?_⟩
    cases h
    simp only [State.tile, Sparse.get_cons, if_true, State.queue]
    exact ⟨trivial, rfl, by decide +kernel, fun q => rfl⟩

/-- A request of source 2 that waits is admitted by the lock which ends. -/
theorem test_watchdog_next :
    ((bitten [req false false false 600 2 1]).arb chan).pending = [req false false false 600 2 1] ∧
    (req false false false 600 2 1).lock = false := ⟨(test_watchdog_bite _).2.1, rfl⟩

/-! ### Banks and clocks -/

def bank3 : BankId := .scr 0 3

def banked (k : Bank) : State := { device with
  tiles := [(0, { Tile.reset with rows := [(rowOf 3 5, 7)], banks := if k = Bank.reset then [] else [(3, k)] })]
  set := { device.set with live := Sparse.set 0 [] keySpRetire 8 } }

theorem test_patrol :
    (banked Bank.reset).bankFree bank3 = true ∧
    ((banked Bank.reset).tile 0).bank 3 = Bank.reset ∧
    (((after (exec (.patrolRead bank3) (banked Bank.reset))).tile 0).bank 3).patrol = 1 ∧
    Bank.reset.patrolled 3 0 = some 0 ∧
    (let s := banked { Bank.reset with patrol := 1599 }
     ((s.tile 0).bank 3).faults = [] ∧ ((s.tile 0).bank 3).wback = [] ∧ ((after (exec (.patrolRead bank3) s)).tile 0).bank 3 = Bank.reset) := by decide +kernel

/-- Patrol and late checks wait while the bank's arbiter has a holder. -/
def bankHeld : State := { banked { Bank.reset with late := [(5, 0, false)] } with
  arbs := [(.bank bank3, { Arb.reset with holder := some (req false false false 500 1 0) })] }

theorem test_bank_held :
    bankHeld.bankFree bank3 = false ∧ after (exec (.patrolRead bank3) bankHeld) = bankHeld ∧
    after (exec (.combineLateCheck bank3) bankHeld) = bankHeld := ⟨by decide +kernel, rfl, rfl⟩

/-- Bank row 5 has one wrong bit in its codeword 2. -/
def faulty : State := banked { Bank.reset with faults := [(5, [⟨2, [10], false⟩])], patrol := 5 }

theorem test_patrol_corrects :
    Sparse.get [] ((faulty.tile 0).bank 3).faults 5 = [⟨2, [10], false⟩] ∧ Sparse.get 0 ((faulty.tile 0).bank 3).remap 5 = 0 ∧
    5 < bankRows 3 ∧ Sparse.get false (faulty.tile 0).fresh (rowOf 3 5) = false ∧ ((faulty.tile 0).bank 3).log = [] ∧
    ((faulty.tile 0).bank 3).wback = [] ∧ faulty.live keySpRetire ≥ 2 ∧ faulty.boot.phase = 5 ∧ faulty.counter 0x0D01 0 = 0 ∧
    (((after (exec (.patrolRead bank3) faulty)).tile 0).bank 3).wback = [5] ∧
    (((after (exec (.patrolRead bank3) faulty)).tile 0).bank 3).log = [(5, 1)] := by decide +kernel

def wbacks : State := banked { Bank.reset with faults := [(5, [⟨2, [10], false⟩, ⟨4, [1], true⟩])], wback := [5] }

theorem test_ecc_write_back :
    ((wbacks.tile 0).bank 3).wback = 5 :: [] ∧ Sparse.get 0 ((wbacks.tile 0).bank 3).remap 5 = 0 ∧
    Sparse.get false (wbacks.tile 0).fresh (rowOf 3 5) = false ∧
    (∀ f ∈ Sparse.get [] ((wbacks.tile 0).bank 3).faults 5, f.bits.length ≤ 1) ∧
    ((Sparse.get [] ((wbacks.tile 0).bank 3).faults 5).map (fun f => f.cw)).Nodup ∧
    Sparse.get [] (((after (exec (.eccWriteBack bank3) wbacks)).tile 0).bank 3).faults 5 = [⟨4, [1], true⟩] := by decide +kernel

theorem test_late_check :
    let s := banked { Bank.reset with late := [(5, 0, false)] }
    ((s.tile 0).bank 3).late = (5, 0, false) :: [] ∧ ((s.tile 0).bank 3).faults = [] ∧
    (((after (exec (.combineLateCheck bank3) s)).tile 0).bank 3).late = [] := by decide +kernel

/-- The first operand of combine 4 has a wrong bit: it counts once, and the second operand's check will not count again. -/
theorem test_late_check_error :
    let s := banked { Bank.reset with faults := [(5, [⟨2, [10], false⟩])], late := [(5, 4, false), (6, 4, false)] }
    let u := after (exec (.combineLateCheck bank3) s)
    ((s.tile 0).bank 3).late = (5, 4, false) :: [(6, 4, false)] ∧
    Sparse.get [] ((s.tile 0).bank 3).faults (((s.tile 0).bank 3).place 3 5) = [⟨2, [10], false⟩] ∧
    ((s.tile 0).bank 3).log = [] ∧ ((s.tile 0).bank 3).wback = [] ∧ Sparse.get false (s.tile 0).fresh (rowOf 3 5) = false ∧
    s.live keySpRetire ≥ 2 ∧ s.boot.phase = 5 ∧ s.counter 0x0D03 0 = 0 ∧ u.counter 0x0D03 0 = 1 ∧
    ((u.tile 0).bank 3).late = [(6, 4, true)] ∧ ((u.tile 0).bank 3).wback = [5] := by decide +kernel

theorem test_clocks :
    (device.clock 4).lost = false ∧ device.boot.phase = 5 ∧ device.counter 0x1401 4 = 0 ∧
    ((after (exec (.refClockLoss 4) device)).clock 4).lost = true ∧
    (after (exec (.refClockLoss 4) device)).counter 0x1401 4 = 1 ∧
    (after (exec (.refClockLoss 4) device)).cur.notices = [.clockLoss 4] ∧
    ((after (exec (.refClockReturn 4) (after (exec (.refClockLoss 4) device)))).clock 4).lost = false ∧
    device.pending = [] ∧ ((after (step device)).clock 31).count = 1 := by decide +kernel

/-- The tick that a deadline of 1 is reached at, behind a class L holder and behind a lock of source 1. -/
def dueAtTick (holder : Option Req) : State :=
  arbiter { Arb.reset with holder := holder, locked := some 1, pending := [req false false false 1 2 1], next := 2 }

theorem test_tick_overdue :
    let h := req false true false 500 1 0
    let q := req false false false 1 2 1
    (∀ o, (dueAtTick o).pending = [] ∧ (dueAtTick o).resDie chan = 0 ∧ (dueAtTick o).arbs = [(chan, (dueAtTick o).arb chan)] ∧
      NoBite (dueAtTick o) chan 1 ∧ ((dueAtTick o).arb chan).pending = [q] ∧ ((dueAtTick o).arb chan).holder = o ∧
      ((dueAtTick o).arb chan).locked = some 1) ∧
    untilDeadline (((dueAtTick none).clock 0).count + 1) 1 = 0 ∧ h.classP = false ∧ q.emerg = false ∧ q.source = 2 ∧
    ((after (step (dueAtTick (some h)))).arb chan).pending = [{ q with overdue := true }] ∧
    ((after (step (dueAtTick (some h)))).arb chan).holder = some h ∧
    ((after (step (dueAtTick none))).arb chan).pending = [{ q with overdue := true }] ∧
    ((after (step (dueAtTick none))).arb chan).holder = none :=
  ⟨fun o => ⟨rfl, rfl, rfl, noBite_idle chan_limit ⟨rfl, rfl⟩, rfl, rfl, rfl⟩, by decide +kernel⟩

end Sys2Proof.Tests
end

