-- ==== Sys2Proof/Tests/Services.lean ====
section
/-! SUPPORT. Contexts, tiles that leave and enter service, the Inventory, casts, takeovers and failover: states that meet the
hypotheses of the statements, with values by hand. -/

namespace Sys2Proof.Tests
open Sys2Proof.Machine
set_option Elab.async false

/-! ### Contexts -/

def cSave : Cmd := command 0x0600 (args [(10, 0), (11, 1), (64, 512 * 100), (32, 30000)]) []

theorem test_ctx_save :
    Starts (asks device cSave) 4 0x0600 cSave ∧ (asks device cSave).saveFault (span (cSave.arg 0) (cSave.arg 1)) = none ∧
    decodeAddr (cSave.arg 2) = some (.hbm 100) ∧ (∀ p, ((asks device cSave).tile p).banks = []) ∧
    ((asks device cSave).tile 0).groupRowList = [] ∧ cSave.arg 3 = 30000 ∧ 24584 ≤ (asks device cSave).room (.hbm 100) :=
  ⟨starts_of (by decide +kernel), by decide +kernel, by decide +kernel, fun p => rfl, by decide +kernel⟩

/-- A context of tile 0 at rest, all of whose rows are 0, at HBM row 100. -/
def saved (c : Cmd) : State :=
  asks { device with mem := { Memory.reset with
    hbm := [(100, device.ctxHeader 0 1 24584 (crc32c 2 512)), (101, 2), (102, device.ctxTileHeader 0 0)] } } c

def cCheck (at_ : Nat) : Cmd := command 0x0602 (args [(64, 512 * at_), (32, 30000)]) []

set_option maxRecDepth 100000 in
theorem test_ctx_check :
    (Starts (saved (cCheck 100)) 4 0x0602 (cCheck 100) ∧ Starts (saved (cCheck 200)) 4 0x0602 (cCheck 200)) ∧
    ((saved (cCheck 100)).checkContext ((cCheck 100).arg 0) ((cCheck 100).arg 1) none).2 = ⟨stOk, 0, 24584, [2]⟩ ∧
    ((saved (cCheck 200)).checkContext ((cCheck 200).arg 0) ((cCheck 200).arg 1) none).2.status = stBadCrc :=
  ⟨⟨starts_of (by decide +kernel), starts_of (by decide +kernel)⟩, by decide +kernel⟩

/-- A context near the end of HBM whose one block begins at its row 10000: not all of its rows are backed. -/
def savedShort (c : Cmd) : State :=
  asks { device with mem := { Memory.reset with
    hbm := [(hbmRows - 30000, device.ctxHeader 0 1 24584 (crc32c 10000 512)), (hbmRows - 29999, 10000),
            (hbmRows - 20000, device.ctxTileHeader 0 0)] } } c

def cRestore (at_ : Nat) : Cmd := command 0x0601 (args [(10, 0), (11, 1), (64, 512 * at_), (32, 30000)]) []

set_option maxRecDepth 100000 in
theorem test_ctx_restore :
    (Starts (saved (cRestore 100)) 4 0x0601 (cRestore 100) ∧ Starts (saved (cRestore 200)) 4 0x0601 (cRestore 200)) ∧
    ((saved (cRestore 100)).checkContext ((cRestore 100).arg 2) ((cRestore 100).arg 3)
      (some ((cRestore 100).arg 0, (cRestore 100).arg 1))).2 = ⟨stOk, 0, 24584, [2]⟩ ∧
    decodeAddr ((cRestore 100).arg 2) = some (.hbm 100) ∧ (saved (cRestore 100)).mem.hbmFaults = [] ∧ (cRestore 100).arg 1 = 1 ∧
    (saved (cRestore 100)).phys ((cRestore 100).arg 0) = some 0 ∧ 2 + 24582 ≤ (saved (cRestore 100)).room (.hbm 100) ∧
    ((saved (cRestore 100)).ent 0).state = tsInService ∧ (saved (cRestore 100)).tileBusy 0 = false ∧
    (∀ w, ((saved (cRestore 100)).win 0 w).ledger = []) ∧
    ((saved (cRestore 200)).checkContext ((cRestore 200).arg 2) ((cRestore 200).arg 3)
      (some ((cRestore 200).arg 0, (cRestore 200).arg 1))).2.status ≠ stOk :=
  ⟨⟨starts_of (by decide +kernel), starts_of (by decide +kernel)⟩, by decide +kernel, by decide +kernel, by decide +kernel,
    by decide +kernel, by decide +kernel, by decide +kernel, by decide +kernel, by decide +kernel, fun w => rfl,
    by decide +kernel⟩

set_option maxRecDepth 100000 in
theorem test_ctx_restore_short :
    let c := cRestore (hbmRows - 30000)
    let s := savedShort c
    Starts s 4 0x0601 c ∧
    (s.checkContext (c.arg 2) (c.arg 3) (some (c.arg 0, c.arg 1))).2 = ⟨stOk, 0, 24584, [10000]⟩ ∧
    decodeAddr (c.arg 2) = some (.hbm (hbmRows - 30000)) ∧ s.phys (c.arg 0) = some 0 ∧ s.mem.hbmFaults = [] ∧
    (∀ w, (s.win 0 w).ledger = []) ∧ s.room (.hbm (hbmRows - 30000)) = 30000 ∧ s.room (.hbm (hbmRows - 30000)) < 10000 + 24582 :=
  ⟨starts_of (by decide +kernel), by decide +kernel, by decide +kernel, by decide +kernel, by decide +kernel, fun w => rfl,
    by decide +kernel, by decide +kernel⟩

/-! ### Tiles -/

/-- Tile 0 in state `st`. -/
def inState (st : Nat) (c : Cmd) : State :=
  asks { device with inv := { device.inv with tiles := Sparse.set TileEnt.reset device.inv.tiles 0 { presented 0 with state := st } } } c

def tileCmd (op : Nat) : Cmd := command op (args [(10, 0)]) []

theorem test_inv_drain :
    (Starts (inState tsInService (tileCmd 0x0901)) 4 0x0901 (tileCmd 0x0901) ∧
      Starts (inState tsDrained (tileCmd 0x0901)) 4 0x0901 (tileCmd 0x0901)) ∧
    (inState tsInService (tileCmd 0x0901)).phys ((tileCmd 0x0901).arg 0) = some 0 ∧
    (inState tsInService (tileCmd 0x0901)).logical 0 = some 0 ∧ ((inState tsInService (tileCmd 0x0901)).ent 0).state = 0 ∧
    ((inState tsDrained (tileCmd 0x0901)).ent 0).state = tsDrained ∧
    ((after (exec (.invDrain 4) (inState tsInService (tileCmd 0x0901)))).ent 0).state = tsDraining ∧
    answer (.invDrain 4) (inState tsDrained (tileCmd 0x0901)) = some (stOk, 0, 0) :=
  ⟨⟨starts_of (by decide +kernel), starts_of (by decide +kernel)⟩, by decide +kernel⟩

def cDraining : Cmd := { tileCmd 0x0901 with st := .started, wait := .drain 0 }
theorem test_tile_drained :
    (inState tsDraining cDraining).cmd 4 = some cDraining ∧ cDraining.arg 0 = 0 ∧
    (inState tsDraining cDraining).cur.cmds.filter (fun d => d.wait == .drain 0) = [cDraining] ∧
    ((inState tsDraining cDraining).ent 0).state = tsDraining ∧ (inState tsDraining cDraining).running 0 = false ∧
    (inState tsDraining cDraining).queuesIdle 0 = true ∧ (∀ w, ((inState tsDraining cDraining).win 0 w).ledger = []) ∧
    (inState tsDraining cDraining).inv.failing = [] ∧
    ((after (exec (.tileDrained 0) (inState tsDraining cDraining))).ent 0).state = tsDrained :=
  ⟨by decide +kernel, by decide +kernel, by decide +kernel, by decide +kernel, by decide +kernel, by decide +kernel,
    fun w => rfl, by decide +kernel, by decide +kernel⟩

def cRecal : Cmd := { tileCmd 0x0902 with st := .started, wait := .recal 0 }
theorem test_inv_recal :
    Starts (inState tsDrained (tileCmd 0x0902)) 4 0x0902 (tileCmd 0x0902) ∧
    ((inState tsDrained (tileCmd 0x0902)).ent 0).state = tsDrained ∧
    (∀ w, ((inState tsDrained (tileCmd 0x0902)).win 0 w).ledger = []) ∧
    ((after (exec (.invRecal 4) (inState tsDrained (tileCmd 0x0902)))).ent 0).state = tsRecal ∧
    (inState tsRecal cRecal).cmd 4 = some cRecal ∧
    (inState tsRecal cRecal).cur.cmds.filter (fun d => d.wait == .recal 0) = [cRecal] ∧
    ((inState tsRecal cRecal).ent 0).state = tsRecal ∧ (inState tsRecal cRecal).testCause 0 ⟨[], [], [], 0, false⟩ = none ∧
    ((after (exec (.recalDone 0 ⟨[], [], [], 0, false⟩) (inState tsRecal cRecal))).ent 0).state = tsDrained :=
  ⟨starts_of (by decide +kernel), by decide +kernel, fun w => rfl, by decide +kernel⟩

/-- Tile 0 with a reference for work list 0, which a recalibration and a replacement leave in place (R264). -/
def referred (op : Nat) : State :=
  (inState tsDrained (tileCmd op)).updTile 0 (fun t => { t with refs := [(0, { last := 5, valid := true, draws := 2 })] })
theorem test_references_stand :
    ((after (exec (.invRecal 4) (referred 0x0902))).tile 0).refs = ((referred 0x0902).tile 0).refs ∧
    ((after (exec (.invRetireTile 4) (referred 0x0903))).tile 48).refs = ((referred 0x0903).tile 0).refs := by
  decide +kernel

/-- The nearest spare of tile 0 is tile 48, the tile of the same avenue in the next street: tile 1 is presented. -/
theorem test_inv_retire_tile :
    Starts (inState tsDrained (tileCmd 0x0903)) 4 0x0903 (tileCmd 0x0903) ∧
    (inState tsDrained (tileCmd 0x0903)).nearestSpare 0 = some 48 ∧ ((inState tsDrained (tileCmd 0x0903)).tile 0).banks = [] ∧
    ((inState tsDrained (tileCmd 0x0903)).tile 0).rows = [] ∧
    ((inState tsDrained (tileCmd 0x0903)).tile 48).banks = [] ∧
    answer (.invRetireTile 4) (inState tsDrained (tileCmd 0x0903)) = some (stOk, 0, 48) ∧
    (∀ w, ((inState tsDrained (tileCmd 0x0903)).win 0 w).ledger = []) :=
  ⟨starts_of (by decide +kernel), by decide +kernel, by decide +kernel, by decide +kernel, by decide +kernel,
    by decide +kernel, fun w => rfl⟩

/-- No tile is a spare. -/
def spareless : State :=
  asks { device with inv := { Inventory.reset with tiles := (0, { presented 0 with state := tsDrained }) :: (List.range' 1 1151).map (fun p => (p, retiredEnt 1)) } }
    (tileCmd 0x0903)

theorem get_range (d e : TileEnt) (n : Nat) : ∀ a q, a ≤ q → q < a + n →
    Sparse.get d ((List.range' a n).map (fun p => (p, e))) q = e := by
  induction n with
  | zero => intro a q h1 h2; omega
  | succ n ih =>
    intro a q h1 h2
    rw [List.range'_succ, List.map_cons, Sparse.get_cons]
    split
    · rfl
    · exact ih (a + 1) q (by omega) (by omega)

theorem no_spare (s : State) (p : Nat) (h : ∀ q, q < numPhys → (s.ent q).role ≠ roSpare) : s.nearestSpare p = none := by
  unfold State.nearestSpare
  have key : ∀ l : List Nat, (∀ q ∈ l, (s.ent q).role ≠ roSpare) →
      l.foldl (fun (m : Option Nat) q =>
        if (s.ent q).role ≠ roSpare then m
        else match m with
          | none => some q
          | some b => if moves p q < moves p b then some q else some b) none = none := by
    intro l
    induction l with
    | nil => intro _; rfl
    | cons a l ih =>
      intro hl
      rw [List.foldl_cons, if_pos (hl a (by simp))]
      exact ih (fun q hq => hl q (by simp [hq]))
  exact key _ (fun q hq => h q (List.mem_range.mp hq))

theorem test_inv_retire_tile_last :
    Starts spareless 4 0x0903 (tileCmd 0x0903) ∧ (spareless.ent 0).state = tsDrained ∧
    (∀ w, (spareless.win 0 w).ledger = []) ∧ spareless.nearestSpare 0 = none := by
  refine ⟨starts_of (by decide +kernel), by decide +kernel, fun w => rfl, no_spare _ _ (fun q hq => ?_)⟩
  simp only [spareless, asks, State.ent, Sparse.get_cons]
  split
  · decide
  · rw [get_range _ _ _ 1 q (by omega) (by simp only [numPhys] at hq; omega)]; decide

theorem test_inv_present :
    (Starts (inState tsDrained (tileCmd 0x0904)) 4 0x0904 (tileCmd 0x0904) ∧
      Starts (inState tsRecal (tileCmd 0x0904)) 4 0x0904 (tileCmd 0x0904)) ∧
    (inState tsDrained (tileCmd 0x0904)).phys ((tileCmd 0x0904).arg 0) = some 0 ∧
    ((inState tsDrained (tileCmd 0x0904)).ent 0).state = tsDrained ∧ ((inState tsRecal (tileCmd 0x0904)).ent 0).state ≠ tsDrained ∧
    ((after (exec (.invPresent 4) (inState tsDrained (tileCmd 0x0904)))).ent 0).state = tsInService ∧
    answer (.invPresent 4) (inState tsRecal (tileCmd 0x0904)) = some (stConflict, 0, 0) ∧
    (inState tsDrained (tileCmd 0x0904)).inv.failing = [] :=
  ⟨⟨starts_of (by decide +kernel), starts_of (by decide +kernel)⟩, by decide +kernel⟩

/-- Tile 0, which Curator has noted for cause 4, is DRAINED: its spare, tile 48, is presented. -/
def noted : State :=
  let s := inState tsDrained (tileCmd 0x0904)
  { s with inv := { s.inv with failing := [(0, 4, true)] } }

theorem test_inv_present_noted :
    Starts noted 4 0x0904 (tileCmd 0x0904) ∧ (tileCmd 0x0904).arg 0 = 0 ∧ noted.phys 0 = some 0 ∧
    (noted.ent 0).state = tsDrained ∧ noted.inv.failing.find? (fun f => f.1 == 0) = some (0, 4, true) ∧
    noted.nearestSpare 0 = some 48 ∧ Sparse.wf TileEnt.reset noted.inv.tiles = true ∧
    (noted.inv.tiles.all (fun e => e.1 == 0 || !(e.2.role == roPresented && e.2.logical == 0))) = true ∧
    (let u := after (exec (.invPresent 4) noted)
     (u.ent 48).logical = 0 ∧ (u.ent 48).state = tsInService ∧ (u.ent 0).cause = 4 ∧ u.inv.failing = []) :=
  ⟨starts_of (by decide +kernel), by decide +kernel⟩

/-! ### The Inventory -/

def cRetireRow : Cmd := command 0x0905 (args [(10, 0), (16, 0x5FFF)]) []
theorem test_inv_retire_row :
    Starts (asks device cRetireRow) 4 0x0905 cRetireRow ∧ rowExists (cRetireRow.arg 1) = true ∧
    (asks device cRetireRow).phys (cRetireRow.arg 0) = some 0 ∧ ((asks device cRetireRow).tile 0).banks = [] ∧
    (asks device cRetireRow).inv.records = [] ∧
    (((after (exec (.invRetireRow 4) (asks device cRetireRow))).tile 0).bank 15).remap = [(1535, 1)] :=
  ⟨starts_of (by decide +kernel), by decide +kernel⟩

/-- Spares 0 and 2 have been taken: the row takes spare 1. With none left the command is refused. -/
def rowTaken (l : List Nat) : State :=
  (asks device cRetireRow).updTile 0 (fun t => t.setBank 15 { Bank.reset with taken := l })
theorem test_inv_retire_row_next :
    Starts (rowTaken [2, 0]) 4 0x0905 cRetireRow ∧ (((rowTaken [2, 0]).tile 0).bank 15).nextSpare 15 1535 = some 1 ∧
    ((rowTaken [2, 0]).tile 0).cleanAt 0x5FFF = true ∧ (rowTaken [2, 0]).inv.records = [] ∧
    (((after (exec (.invRetireRow 4) (rowTaken [2, 0]))).tile 0).bank 15).taken = [1, 2, 0] :=
  ⟨starts_of (by decide +kernel), by decide +kernel⟩
theorem test_inv_retire_row_none :
    Starts (rowTaken (List.range 64)) 4 0x0905 cRetireRow ∧
    (((rowTaken (List.range 64)).tile 0).bank 15).nextSpare 15 1535 = none ∧
    answer (.invRetireRow 4) (rowTaken (List.range 64)) = some (stNoResource, 0, 0) :=
  ⟨starts_of (by decide +kernel), by decide +kernel⟩

def cRelocate : Cmd := command 0x0906 (args [(64, 512 * 0x12345)]) []
theorem test_inv_relocate :
    Starts (asks device cRelocate) 4 0x0906 cRelocate ∧ decodeAddr (cRelocate.arg 0) = some (.hbm 0x12345) ∧ 0x12345 < hbmRows ∧
    ((asks device cRelocate).channel (hbmChannel 0x12345)).taken = 0 ∧ hbmChannel 0x12345 = 0x66 ∧
    (after (exec (.invRelocate 4) (asks device cRelocate))).inv.records.length = 1 :=
  ⟨starts_of (by decide +kernel), by decide +kernel⟩

/-- Row 0x12345 is read with its bit 9 wrong, and moves as it is read. -/
theorem test_inv_relocate_faulty :
    let s := { asks device cRelocate with mem := { Memory.reset with
      hbm := [(0x12345, 1)], hbmFaults := [(0x12345, [⟨[9], false, false⟩])] } }
    Sparse.get 0 (after (exec (.invRelocate 4) s)).mem.hbm 0x12345 = 513 := by decide +kernel

def cInvRead : Cmd := command 0x0900 (args [(64, 512 * 7), (32, 10)]) []
theorem test_inv_read :
    Starts (asks device cInvRead) 4 0x0900 cInvRead ∧ ((asks device cInvRead).invImage true).length = 10 ∧ cInvRead.arg 1 = 10 ∧
    (asks device cInvRead).resultStatus cInvRead (cInvRead.arg 0) 10 = stOk :=
  ⟨starts_of (by decide +kernel), by decide +kernel⟩

def cRecord : Cmd := command 0x0907 0 []
def unsaved : State := { device with inv := { device.inv with unsaved := 3 } }
theorem test_inv_record :
    (Starts (asks unsaved cRecord) 4 0x0907 cRecord ∧ Starts (asks device cRecord) 4 0x0907 cRecord) ∧
    unsaved.boot.stripFailed = false ∧ unsaved.boot.dir = some (0, 7) ∧ unsaved.inv.unsaved ≠ 0 ∧ unsaved.boot.invCopy = 0 ∧
    device.inv.unsaved = 0 ∧ unsaved.cur.ready = true ∧ unsaved.boot.flash0.present = true ∧ unsaved.firstFlash = 0 ∧
    (unsaved.flash 0).bad = [] ∧
    answer (.invRecord 4 false false) (asks unsaved cRecord) = some (stOk, 0, 3) ∧
    answer (.invRecord 4 true false) (asks unsaved cRecord) = some (stNoResource, 0, 0) ∧
    (after (exec (.inventoryFlush false false) unsaved)).boot.dir = some (1, 8) :=
  ⟨⟨starts_of (by decide +kernel), starts_of (by decide +kernel)⟩, by decide +kernel⟩

theorem test_inv_record_strip_lost :
    let s := asks { unsaved with boot := { unsaved.boot with stripFailed := true } } cRecord
    Starts s 4 0x0907 cRecord ∧ s.boot.stripFailed = true ∧ s.inv.unsaved ≠ 0 ∧
    (after (exec (.invRecord 4 false false) s)).cur.replied.map (fun c => c.reply.map (fun r => fld r.toNat 16 8)) =
      [some stNoResource] ∧
    (after (exec (.invRecord 4 false false) s)).tx = s.tx := ⟨starts_of (by decide +kernel), by decide +kernel⟩

/-! ### Casts -/

/-- A device of house 128, which is the source of quarter 2, with port 3 leading to house 64. -/
def netted (house group : Nat) (f : State → State) : State :=
  f { device with set := { device.set with
    house := house, routes := [(64, 11)], live := liveSet [] keyCastGroup group } }

def cSub : Cmd := command 0x0A00 (args [(8, 1), (64, 512 * 100), (40, 50)]) []
def peerCmd (op : Nat) (l : List (Nat × Nat)) : Cmd := { command op (args l) [] with port := .cwy 3, house := 64 }

theorem test_cast_subscribe :
    Starts (asks (netted 5 0xFF id) cSub) 4 0x0A00 cSub ∧ isPeerPort cSub.port = false ∧ cSub.arg 0 = 1 ∧
    decodeAddr (cSub.arg 1) = some (.hbm 100) ∧ cSub.arg 2 ≤ (asks (netted 5 0xFF id) cSub).room (.hbm 100) ∧
    (asks (netted 5 0xFF id) cSub).sub 1 = none ∧ (asks (netted 5 0xFF id) cSub).route 64 = some 3 ∧
    (asks (netted 5 0xFF id) cSub).convs = [] ∧
    (after (exec (.castSubscribe 4) (asks (netted 5 0xFF id) cSub))).cur.sent.length = 1 :=
  ⟨starts_of (by decide +kernel), by decide +kernel⟩

def cLeafSub : Cmd := peerCmd 0x0A00 [(8, 2), (64, 0), (40, 0)]
theorem test_cast_subscribe_source :
    Starts (asks (netted 128 9 id) cLeafSub) 4 0x0A00 cLeafSub ∧ isPeerPort cLeafSub.port = true ∧
    (asks (netted 128 9 id) cLeafSub).castSource (cLeafSub.arg 0) = true ∧
    (after (exec (.castSubscribe 4) (asks (netted 128 9 id) cLeafSub))).casts.leaves.length = 1 :=
  ⟨starts_of (by decide +kernel), by decide +kernel⟩

/-- A subscription to quarter 1 whose copy is complete, of instance 0x77. -/
def sub1 : Sub := { Sub.fresh 1 (512 * 100) 50 with live := true, valid := true, record := row (put 128 32 0x77), accepted := 3 }
def subscribed (u : Sub) : State := netted 5 0xFF (fun s => { s with casts := { Casts.reset with subs := [u] } })

theorem test_cast_unsubscribe :
    let c := peerCmd 0x0A01 [(8, 2)]
    let d := command 0x0A01 (args [(8, 1)]) []
    (Starts (asks (netted 128 9 id) c) 4 0x0A01 c ∧ Starts (asks (subscribed sub1) d) 4 0x0A01 d) ∧
    isPeerPort c.port = true ∧ isPeerPort d.port = false ∧ (asks (subscribed sub1) d).cur.active = some 30 ∧
    ((asks (subscribed sub1) d).win 30 15).ledger = [] ∧
    ((after (exec (.castUnsubscribe 4) (asks (subscribed sub1) d))).sub 1).isNone = true :=
  ⟨⟨starts_of (by decide +kernel), starts_of (by decide +kernel)⟩, by decide +kernel⟩

theorem test_cast_status :
    let c := command 0x0A02 (args [(8, 2)]) []
    let d := command 0x0A02 (args [(8, 1)]) []
    (Starts (asks (netted 128 9 id) c) 4 0x0A02 c ∧ Starts (asks (subscribed sub1) d) 4 0x0A02 d ∧
      Starts (asks (netted 5 9 id) d) 4 0x0A02 d) ∧
    (asks (netted 128 9 id) c).castSource 2 = true ∧ (asks (subscribed sub1) d).castSource 1 = false ∧
    ((asks (subscribed sub1) d).sub 1 = some sub1 ∧ (asks (netted 5 9 id) d).sub 1 = none) ∧ sub1.valid = true ∧
    reply (after (exec (.castStatus 4) (asks (subscribed sub1) d))) = some (stOk, 0, 2, 0x77, 3, 0) :=
  ⟨⟨starts_of (by decide +kernel), starts_of (by decide +kernel), starts_of (by decide +kernel)⟩, by decide +kernel,
    by decide +kernel, by decide +kernel, by decide +kernel, by decide +kernel⟩

/-- A leaf that waits for its source's first answer reads as none; one whose conversation was reset later is subscribed. -/
theorem test_cast_status_waiting :
    let d := command 0x0A02 (args [(8, 1)]) []
    let bare := { sub1 with live := false, valid := false, incomplete := 2 }
    let s := asks (subscribed bare) d
    let w := { s with cur := { s.cur with sent := [⟨3, 3, 64, 0x0A00, .subscribe (some 6) 1⟩] } }
    Starts s 4 0x0A02 d ∧ Starts w 4 0x0A02 d ∧ s.sub 1 = some bare ∧ s.cur.sent = [] ∧
    reply (after (exec (.castStatus 4) w)) = some (stOk, 0, 0, 0, 0, 0) ∧
    reply (after (exec (.castStatus 4) s)) = some (stOk, 0, 1, 0x77, 3, 2) :=
  ⟨starts_of (by decide +kernel), starts_of (by decide +kernel), by decide +kernel, by decide +kernel, by decide +kernel,
    by decide +kernel⟩

theorem test_cast_resubscribe :
    let s := subscribed { sub1 with live := false }
    s.sub 1 = some { sub1 with live := false } ∧ s.cur.ready = true ∧ s.cur.sent = [] ∧ s.route 64 = some 3 ∧ s.convs = [] ∧
    (after (exec (.castResubscribe 1) s)).cur.sent.length = 1 := by decide +kernel

/-! ### Takeovers -/

theorem test_takeover :
    let c := command 0x0A10 (args [(14, 64)]) []
    let d := command 0x0A11 (args [(14, 64), (32, 0)]) []
    (Starts (asks (subscribed sub1) c) 4 0x0A10 c ∧ Starts (asks (subscribed sub1) d) 4 0x0A11 d ∧
      Starts (asks device c) 4 0x0A10 c) ∧
    (asks (subscribed sub1) c).sub (c.arg 0 / 64) = some sub1 ∧
    fld sub1.record.toNat 160 128 = (asks (subscribed sub1) c).digest128 ∧ c.arg 0 = 64 ∧ d.arg 0 = 64 ∧
    (asks (subscribed sub1) c).route 64 = some 3 ∧ (asks device c).sub 1 = none ∧
    (after (exec (.takeoverOffer 4) (asks (subscribed sub1) c))).cur.sent.length = 1 ∧
    (after (exec (.takeoverAssume 4) (asks (subscribed sub1) d))).cur.sent.length = 1 ∧
    answer (.takeoverOffer 4) (asks device c) = some (stBadParam, 0, 0) :=
  ⟨⟨starts_of (by decide +kernel), starts_of (by decide +kernel), starts_of (by decide +kernel)⟩, by decide +kernel⟩

theorem test_takeover_announce :
    let c := command 0x0A12 (args [(14, 70), (14, 64)]) []
    let d := peerCmd 0x0A12 [(14, 70), (14, 64)]
    (Starts (asks (netted 5 9 id) c) 4 0x0A12 c ∧ Starts (asks device c) 4 0x0A12 c ∧ Starts (asks device d) 4 0x0A12 d) ∧
    (asks (netted 5 9 id) c).route (c.arg 1) = some 3 ∧ c.arg 0 = 70 ∧ (asks (netted 5 9 id) c).convs = [] ∧
    (asks device c).route (c.arg 1) = none ∧ isPeerPort d.port = true ∧
    (after (exec (.takeoverAnnounce 4) (asks (netted 5 9 id) c))).route 70 = some 3 :=
  ⟨⟨starts_of (by decide +kernel), starts_of (by decide +kernel), starts_of (by decide +kernel)⟩, by decide +kernel⟩

/-! ### Failover -/

def alone : State := { device with cur := { device.cur with standby := none } }
/-- The standby has begun its takeover. -/
def takingOver (s : State) : State := after (exec .standbyTakeover s)

theorem test_failover :
    device.cur.ready = true ∧ device.cur.active = some 30 ∧ device.cur.standby = some 31 ∧ device.boot.phase = 5 ∧
    device.counter 0x1701 0 = 0 ∧ alone.cur.standby = none ∧ alone.inv.failing = [] ∧ alone.boot.stripFailed = false ∧
    alone.nearestSpare 30 = some 29 ∧ alone.boot.image = some image ∧ image.codeRows < 0x6000 ∧
    (after (exec .curatorHeartbeat device)).cur.beats = 1 ∧
    (after (exec .curatorHeartbeat alone)).cur.standby = some 29 ∧
    (takingOver device).cur.ready = false ∧ (takingOver device).cur.handover = true ∧
    (takingOver device).cur.active = some 30 ∧ (takingOver device).counter 0x1701 0 = 1 ∧
    (∀ c ∈ (takingOver device).cur.mirror, c.cutShort = false) ∧
    (after (exec .standbyTakeover (takingOver device))).cur.active = some 31 ∧
    (after (exec .standbyTakeover (takingOver device))).cur.ready = true ∧
    ((after (exec .standbyTakeover (takingOver device))).ent 30).cause = 5 := by decide +kernel

/-- 8 us on die 7, where the heartbeat of tile 30's die began at reading 2. A strip lost in the takeover is reported at its end. -/
theorem test_failover_times :
    (∀ k b, Lapses device k b) ∧ dieOf 30 = 5 ∧
    (let u := after (exec .curatorHeartbeat { device with timers := [(.beat, 5, 2), (.seen, 5, 2)] })
     (u.clock 5).count = 8002 ∧ u.timers = [(.beat, 5, 8002), (.seen, 5, 8002)]) ∧
    (let s := takingOver { device with boot := { device.boot with stripFailed := true } }
     s.boot.stripTold = false ∧ s.arc.linkUp = true ∧ (after (exec .standbyTakeover s)).tx = s.tx ++ [.stripLost]) :=
  ⟨fun _ _ => rfl, by decide +kernel⟩

/-- A started win.read, which only reads, is to be executed again from the start (R307). -/
def reading : Cmd :=
  { command 0x0403 (args [(10, 0), (4, 1)]) [] with
    st := .started
    wait := .credit }
theorem test_failover_read :
    let s := takingOver { device with cur := { device.cur with cmds := [reading], mirror := [reading] } }
    s.cur.mirror = [reading] ∧ reading.cutShort = true ∧ reading.readOnly = true ∧ s.cur.ready = false ∧ s.cur.handover = true ∧
    (after (exec .standbyTakeover s)).cur.cmds.map (fun c => (c.n, c.st, c.wait)) = [(4, .queued, .none)] := by decide +kernel

/-- A leaf of quarter 12 whose window 15 is at generation 7: the new active Curator opens it at generation 8 (R363). -/
def following : State :=
  { device.setWin 30 15 { Window.reset with gen := 7 } with
    casts := { device.casts with subs := [{ Sub.fresh 12 0 9 with live := true }] } }
theorem test_failover_generation :
    ((after (exec .standbyTakeover (takingOver following))).win 31 15).gen = 8 ∧
    ((after (exec .standbyTakeover (takingOver following))).win 31 15).isOpen = true := by decide +kernel

end Sys2Proof.Tests
end

