-- ==== Sys2Proof/Tests/Links.lean ====
section
/-! SUPPORT. Lanes, ports, expanders, frames that arrive, conversations and collectives: states that meet the hypotheses of the
statements, with values by hand. -/

namespace Sys2Proof.Tests
open Sys2Proof.Machine
set_option Elab.async false

/-! ### Lanes and ports -/

/-- House 5 with port 3 on its working lane, and the spare lane trained when `spare` says so. -/
def laned (k : CwyPort) : State := { device with ports := [(3, k)], set := { device.set with routes := [(64, 11)] } }
def work : CwyPort := { CwyPort.reset with workUp := true }
def both : CwyPort := { work with spareUp := true }
/-- The working lane was left for errors and is under test. -/
def left3 : CwyPort := { both with
  workUp := false
  onSpare := true
  testing := 1 }

def lanes (s : State) : CwyPort := s.cport 3

theorem test_lane_loss :
    (laned both).boot.phase = 5 ∧ (laned both).cur.ready = true ∧ both.up = true ∧ both.usable (!both.onSpare) = true ∧
    (laned both).counter 0x180D 3 = 0 ∧ lanes (after (exec (.laneLockLoss 3) (laned both))) = left3 ∧
    (laned both).live keySpareBer = 16 ∧ lanes (after (exec (.laneBerCheck 3 17) (laned both))) = left3 ∧
    lanes (after (exec (.laneBerCheck 3 16) (laned both))) = both ∧
    work.up = true ∧ work.usable (!work.onSpare) = false ∧
    (lanes (after (exec (.laneLockLoss 3) (laned work)))).up = false := by decide +kernel

theorem test_lane_test :
    left3.testing = laneNo false ∧ left3.up = true ∧ (laned left3).counter 0x180F 3 = 0 ∧ (laned left3).inv.records = [] ∧
    lanes (after (exec (.laneTestDone 3 false true) (laned left3))) = { both with onSpare := true } ∧
    (lanes (after (exec (.laneTestDone 3 false false) (laned left3)))).workGone = true ∧
    (after (exec (.laneTestDone 3 false false) (laned left3))).inv.records = [⟨5, true, 0, 3, 0⟩] := by decide +kernel

theorem test_training :
    CwyPort.reset.workGone = false ∧ CwyPort.reset.testing ≠ laneNo false ∧ CwyPort.reset.onSpare = false ∧
    lanes (after (exec (.portTrainingDone 3 false) (laned CwyPort.reset))) = work ∧
    work.spareGone = false ∧ work.up = true ∧ lanes (after (exec (.portTrainingDone 3 true) (laned work))) = both := by
  decide +kernel

theorem test_hello_send :
    work.usable false = true ∧ (laned work).ethMode 3 = false ∧ Lapses (laned work) (.hello 3 false) 100000 ∧
    (after (exec (.helloSend 3 false) (laned work))).tx.length = 1 ∧ (after (exec (.helloSend 3 true) (laned work))).tx = [] :=
  ⟨by decide +kernel, by decide +kernel, rfl, by decide +kernel, by decide +kernel⟩

theorem test_link_status :
    let c := command 0x0D00 (args [(4, 3)]) []
    let d := command 0x0D00 (args [(4, 8)]) []
    (Starts (asks (laned both) c) 4 0x0D00 c ∧ Starts (asks (laned both) d) 4 0x0D00 d) ∧ c.arg 0 = 3 ∧ d.arg 0 = 8 ∧
    answer (.linkStatus 4) (asks (laned both) c) = some (stOk, 0, 0x42) ∧
    answer (.linkStatus 4) (asks (laned both) d) = some (stOk, 0, 2) :=
  ⟨⟨starts_of (by decide +kernel), starts_of (by decide +kernel)⟩, by decide +kernel⟩

theorem test_link_spare :
    let c := command 0x0D01 (args [(4, 3), (1, 1)]) []
    let d := command 0x0D01 (args [(4, 3), (1, 0)]) []
    (Starts (asks (laned both) c) 4 0x0D01 c ∧ Starts (asks (laned both) d) 4 0x0D01 d) ∧ c.arg 1 = 1 ∧ d.arg 1 = 0 ∧
    c.arg 0 = 3 ∧ d.arg 0 = 3 ∧ both.usable true = true ∧
    (lanes (after (exec (.linkSpare 4) (asks (laned both) c)))).onSpare = true ∧
    answer (.linkSpare 4) (asks (laned both) d) = some (stOk, 0, 0) :=
  ⟨⟨starts_of (by decide +kernel), starts_of (by decide +kernel)⟩, by decide +kernel⟩

theorem test_link_quarantine_digest :
    let c := command 0x0D02 (args [(4, 3), (1, 1)]) []
    let d := command 0x0D03 (args [(4, 3)]) []
    let k : CwyPort := { both with digest := some (7 + 2 ^ 96) }
    (Starts (asks (laned both) c) 4 0x0D02 c ∧ Starts (asks (laned k) d) 4 0x0D03 d) ∧
    (lanes (after (exec (.linkQuarantine 4) (asks (laned both) c)))).quarantine = true ∧
    reply (after (exec (.linkDigest 4) (asks (laned k) d))) = some (stOk, 0, 7, 0, 0, 1) :=
  ⟨⟨starts_of (by decide +kernel), starts_of (by decide +kernel)⟩, by decide +kernel⟩

/-! ### Expanders -/

def expanded : State := { device with mem := { Memory.reset with
  expanders := [⟨1, 9, 100, 50⟩]
  cxl := [(cxlKey 1 100, 7)] } }

theorem test_expanders :
    expanded.mem.expanders.find? (fun y => y.port == 1 && y.id == 9) = some ⟨1, 9, 100, 50⟩ ∧ expanded.boot.phase = 5 ∧
    expanded.counter 0x1102 1 = 0 ∧ expanded.cur.ready = true ∧ (after (exec (.cxlLinkDown 1 9) expanded)).mem.cxl = [] ∧
    (∀ y ∈ expanded.mem.expanders, ¬ (y.port = 1 ∧ y.id = 3)) ∧ lowestFree expanded.mem.expanders 1 101 = some 150 ∧
    lowestFree expanded.mem.expanders 1 100 = some 0 ∧
    (after (exec (.cxlExpanderAttach 1 3 101) expanded)).mem.expanders = [⟨1, 9, 100, 50⟩, ⟨1, 3, 150, 101⟩] := by
  decide +kernel

/-- The PHY block of CXL port 2 has failed its test: its second die is the first of the record. -/
def portLost : State := { expanded with inv := { expanded.inv with
  records := expanded.inv.records ++ [⟨6, false, 0, (phyDies 3).headD 0, 0⟩] } }

theorem test_expander_phy :
    portLost.phyFailed 3 = true ∧ expanded.phyFailed 2 = false ∧
    (after (exec (.cxlExpanderAttach 2 3 101) portLost)).mem.expanders = [⟨1, 9, 100, 50⟩] := by decide +kernel

theorem test_expanders_no_queue : ∀ p, (expanded.tile p).queues = [] := fun _ => rfl

/-! ### Frames that arrive -/

def rxFrame (b : Bytes) : RxFrame := { fecCorrected := 0, fecUncorrectable := 0, mac := none, bytes := b }
/-- A control frame of house 64 to house 5, number `seq`, that acknowledges `ack` when there is one. -/
def control (type seq : Nat) (ack : Option Nat) (body : Bytes) : RxFrame :=
  rxFrame (ctlFrame type 5 64 seq (ack.getD 0) ack.isSome 0x1234 body)

/-- What a frame carries, where it passes every check. -/
def got (s : State) (f : RxFrame) (want : Nat) : Rx :=
  match (s.rx 3 f want).2 with
  | some x => x
  | none => { hdr := 0, src := 0, seq := 0, digest := 0, body := [] }

theorem takes_of {s : State} {f : RxFrame} {want : Nat} (h : (s.rx 3 f want).2.isSome = true) :
    Takes s 3 f want (s.rx 3 f want).1 (got s f want) := by
  unfold Takes got
  generalize s.rx 3 f want = r at h ⊢
  obtain ⟨u, o⟩ := r
  cases o with
  | none => cases h
  | some x => rfl

def kept (n resends : Nat) : Kept := { seq := n, type := ftCmd, body := List.replicate 64 0, resends := resends, tally := none }
/-- The conversation with house 64: the next number it expects is 6, and `l` is unacknowledged. -/
def talk (l : List Kept) : Conv := { Conv.fresh 3 64 with
  txNext := 9
  unacked := l
  rxNext := 6
  rxCount := 2 }
def talking (l : List Kept) : State := { laned both with convs := [talk l] }

theorem test_lane_frame :
    Takes (laned both) 3 (control ftLane 0 none (bytesOfNat 8 1)) ftLane
      ((laned both).rx 3 (control ftLane 0 none (bytesOfNat 8 1)) ftLane).1
      (got (laned both) (control ftLane 0 none (bytesOfNat 8 1)) ftLane) ∧
    bit (got (laned both) (control ftLane 0 none (bytesOfNat 8 1)) ftLane).hdr 96 = false ∧
    bit (natOfBytes (got (laned both) (control ftLane 0 none (bytesOfNat 8 1)) ftLane).body) 0 = true ∧
    both.usable true = true ∧
    (lanes (after (exec (.laneFrame 3 (control ftLane 0 none (bytesOfNat 8 1))) (laned both)))).onSpare = true :=
  ⟨takes_of (by decide +kernel), by decide +kernel⟩

theorem test_hello_frame :
    Takes (laned both) 3 (control ftHello 0 none []) ftHello ((laned both).rx 3 (control ftHello 0 none []) ftHello).1
      (got (laned both) (control ftHello 0 none []) ftHello) ∧
    bit (got (laned both) (control ftHello 0 none []) ftHello).hdr 96 = false ∧
    (lanes (after (exec (.helloFrame 3 (control ftHello 0 none [])) (laned both)))).digest = some 0x1234 ∧
    (lanes (after (exec (.helloFrame 3 (control ftHello 0 none [])) (laned both)))).lastPeer = 64 :=
  ⟨takes_of (by decide +kernel), by decide +kernel⟩

/-- Frames 7 and 8 are unacknowledged, and 7 is acknowledged. -/
def ack7 : RxFrame := control ftAck 0 (some 7) []
theorem test_ack_frame :
    let s := talking [kept 7 0, kept 8 0]
    Takes s 3 ack7 ftAck (s.rx 3 ack7 ftAck).1 (got s ack7 ftAck) ∧ bit (got s ack7 ftAck).hdr 96 = true ∧
    s.conv 3 (got s ack7 ftAck).src = some (talk [kept 7 0, kept 8 0]) ∧ (talk [kept 7 0, kept 8 0]).waiting = [] ∧
    (∀ k ∈ (talk [kept 7 0, kept 8 0]).unacked, k.tally = none) ∧
    (after (exec (.ackFrame 3 ack7) s)).convs = [talk [kept 8 0]] :=
  ⟨takes_of (by decide +kernel), by decide +kernel⟩

/-- A sys.nop, number `seq`. -/
def nopFrame (seq : Nat) : RxFrame := control ftCmd seq none (bytesOfNat 64 (packet 0x0100 0).toNat)
theorem test_cmd_frame :
    let s := talking []
    let f := nopFrame 6
    (Takes s 3 f ftCmd (s.rx 3 f ftCmd).1 (got s f ftCmd) ∧ Takes s 3 (nopFrame 9) ftCmd (s.rx 3 (nopFrame 9) ftCmd).1
      (got s (nopFrame 9) ftCmd)) ∧
    (s.conv 3 (got s f ftCmd).src = some (talk []) ∧ (got s f ftCmd).seq = (talk []).rxNext ∧ bit (got s f ftCmd).hdr 96 = false) ∧
    hOpcode (BitVec.ofNat 512 (natOfBytes ((got s f ftCmd).body.take 64))) = 0x0100 ∧
    s.receiptStatus (.cwy 3) (BitVec.ofNat 512 (natOfBytes ((got s f ftCmd).body.take 64))) ((got s f ftCmd).body.drop 64)
      (got s f ftCmd).digest = (stOk, 0) ∧
    s.conv 3 (got s (nopFrame 9) ftCmd).src = some (talk []) ∧ bit (got s (nopFrame 9) ftCmd).hdr 96 = false ∧
    (got s (nopFrame 9) ftCmd).seq ≠ (talk []).rxNext ∧
    ¬ ((talk []).rxNext + 65535 - (got s (nopFrame 9) ftCmd).seq) % 65536 < (talk []).rxCount ∧ s.boot.phase = 5 ∧
    s.counter 0x1808 3 = 0 ∧
    (after (exec (.cmdFrame 3 f) s)).cur.cmds.length = 1 ∧
    (after (exec (.cmdFrame 3 (nopFrame 5)) s)).cur.cmds = [] ∧ (after (exec (.cmdFrame 3 (nopFrame 5)) s)).counter 0x1808 3 = 0 ∧
    (after (exec (.cmdFrame 3 (nopFrame 9)) s)).counter 0x1808 3 = 1 :=
  ⟨⟨takes_of (by decide +kernel), takes_of (by decide +kernel)⟩, by decide +kernel⟩

/-- A prog.put of a Peer is refused at receipt: the reply is kept in the conversation. -/
def putFrame : RxFrame := control ftCmd 6 none (bytesOfNat 64 (packet 0x0301 0).toNat)
theorem test_cmd_frame_refused :
    let s := talking []
    let x := got s putFrame ftCmd
    let h := BitVec.ofNat 512 (natOfBytes (x.body.take 64))
    Takes s 3 putFrame ftCmd (s.rx 3 putFrame ftCmd).1 x ∧
    (s.conv 3 x.src = some (talk []) ∧ x.seq = (talk []).rxNext ∧ bit x.hdr 96 = false) ∧ (talk []).unacked = [] ∧
    (talk []).waiting = [] ∧ s.receiptStatus (.cwy 3) h (x.body.drop 64) x.digest = (stNotPermitted, 1) ∧ s.boot.phase = 5 ∧
    s.counter 0x1601 0 = 0 ∧
    (let u := after (exec (.cmdFrame 3 putFrame) s)
     u.cur.cmds = [] ∧ u.counter 0x1601 0 = 1 ∧ u.convs.map (fun c => c.unacked.map (fun k => (k.type, k.seq))) = [[(ftRpl, 9)]]) :=
  ⟨takes_of (by decide +kernel), by decide +kernel⟩

/-- The final reply to a cast.unsubscribe that this device sent. -/
def unsub : Sent := { tag := 3, port := 3, house := 64, opcode := 0x0A01, purpose := .unsubscribe 1 }
def okReply : Nat := (replyCrc (pack [(0, 16, 3), (48, 16, 0x0A01)])).toNat
def rplFrame3 : RxFrame := control ftRpl 6 none (bytesOfNat 32 okReply)
def sentOne : State := { talking [] with cur := { device.cur with sent := [unsub] } }
theorem test_rpl_frame :
    let f := rplFrame3
    let s := sentOne
    Takes s 3 f ftRpl (s.rx 3 f ftRpl).1 (got s f ftRpl) ∧
    (s.conv 3 (got s f ftRpl).src = some (talk []) ∧ (got s f ftRpl).seq = (talk []).rxNext ∧ bit (got s f ftRpl).hdr 96 = false) ∧
    natOfBytes (got s f ftRpl).body = okReply ∧ fld okReply 224 32 = crc32c okReply 28 ∧
    s.cur.sent.find? (fun z => z.tag == fld okReply 0 16 && z.port == 3 && z.house == (got s f ftRpl).src &&
      z.opcode == fld okReply 48 16) = some unsub ∧
    unsub.purpose = .unsubscribe 1 ∧ fld okReply 16 8 ≠ stAccepted ∧ bit okReply 41 = false ∧
    (after (exec (.rplFrame 3 f) s)).cur.sent = [] :=
  ⟨takes_of (by decide +kernel), by decide +kernel⟩

/-- Tile 1 owns window 1, and tile 2 of house 64 holds two of its credits; five rows of it have been received. -/
def remote : Ledger := { src := srcWord 2 64, held := 2, want := 0, order := 0, path := .none, received := 5, tally := 0, remote := true }
def receiving : State := { talking [] with
  tiles := [(1, { Tile.reset with windows := [(1, { window1 with
    srcMode := 3
    pool := 1
    ledger := [remote] })] })] }

/-- The source has sent seven rows. -/
def tally7 : RxFrame := control ftTally 6 none (tallyBody 1 1 5 false 7)
theorem test_tally_frame :
    let s := receiving
    let f := tally7
    let x := got s f ftTally
    Takes s 3 f ftTally (s.rx 3 f ftTally).1 x ∧
    (s.conv 3 x.src = some (talk []) ∧ x.seq = (talk []).rxNext ∧ bit x.hdr 96 = false) ∧
    bit (natOfBytes x.body) 22 = false ∧ s.phys (fld (natOfBytes x.body) 0 10) = some 1 ∧ fld (natOfBytes x.body) 10 4 = 1 ∧
    (s.win 1 1).isOpen = true ∧ (s.win 1 1).gen = fld (natOfBytes x.body) 14 8 ∧ (s.win 1 1).ledger = [remote] ∧
    srcHouse remote.src = x.src ∧ shortfall (fld (natOfBytes x.body) 32 32) 0 5 = 2 ∧
    ((after (exec (.tallyFrame 3 f) s)).win 1 1).consumed = 2 :=
  ⟨takes_of (by decide +kernel), by decide +kernel⟩

/-- Row 99 for offset 3 of the window, the sixth row sent. -/
def row6 : RxFrame := rxFrame (dataFrame
  { dst := 5, src := 64, tile := 1, window := 1, gen := 5, off := 3, rows := 1, srcTile := 2, curator := false, sent := 6, remain := 0 }
  [99])

set_option maxRecDepth 100000 in
theorem row6_passes : (receiving.rx 3 row6 ftData).2.isSome = true := by decide +kernel

set_option maxRecDepth 100000 in
theorem test_data_frame :
    let s := receiving
    let x := got s row6 ftData
    let h := x.hdr
    Takes s 3 row6 ftData (s.rx 3 row6 ftData).1 x ∧
    bit h 116 = false ∧ fld h 102 4 = 1 ∧ s.phys (fld h 64 10) = some 1 ∧ fld h 74 4 = 1 ∧ (s.win 1 1).isOpen = true ∧
    (s.win 1 1).gen = fld h 78 8 ∧ (s.win 1 1).ledger = [remote] ∧ remote.src = srcWord (fld h 106 10) x.src ∧
    (s.win 1 1).permits s.house remote.src = true ∧ remote.held ≠ 0 ∧ shortfall (fld h 128 32) 1 remote.received = 0 ∧
    fld h 86 16 = 3 ∧ 3 < (s.win 1 1).rows ∧ (s.tile 1).progRow ((s.win 1 1).baseRow + 3) = false ∧
    Sparse.get 0 ((after (exec (.dataFrame 3 row6) s)).tile 1).rows 0x203 = 99 ∧
    ((after (exec (.dataFrame 3 row6) s)).win 1 1).consumed = 1 :=
  ⟨takes_of row6_passes, by decide +kernel⟩

/-! ### Conversations -/

theorem test_conversations :
    (talking [kept 7 14]).conv 3 64 = some (talk [kept 7 14]) ∧ (talk [kept 7 14]).unacked ≠ [] ∧
    (∀ k ∈ (talk [kept 7 14]).unacked, k.resends < 15) ∧ (talking [kept 7 14]).counter 0x1809 3 = 0 ∧ both.up = true ∧
    (after (exec (.controlRetry 3 64) (talking [kept 7 14]))).convs = [talk [kept 7 15]] ∧
    (talking [kept 7 14]).wayTo 3 64 = some 3 ∧ ((talking [kept 7 14]).cport 3).up = true ∧
    (after (exec (.controlRetry 3 64) (talking [kept 7 14]))).tx.length = (talking [kept 7 14]).tx.length + 1 ∧
    (talking [kept 7 15]).conv 3 64 = some (talk [kept 7 15]) ∧ (kept 7 15).resends = 15 ∧ (talking [kept 7 15]).cur.sent = [] ∧
    (talking [kept 7 15]).colls = [] ∧ (talk [kept 7 15]).tallies = [] ∧ (talking [kept 7 15]).counter 0x180A 3 = 0 ∧
    (after (exec (.peerLost 3 64) (talking [kept 7 15]))).convs = [Conv.fresh 3 64] ∧
    (after (exec (.peerLost 3 64) (talking [kept 7 14]))).convs = [talk [kept 7 14]] ∧
    (talking []).conv 3 64 = some (talk []) ∧ (talk []).unacked = [] ∧ (talk []).waiting = [] ∧
    (after (exec (.conversationFree 3 64) (talking []))).convs = [] ∧
    (after (exec (.peerLost 3 64) (talking [kept 7 15]))).cur.notices = [.peerLost 3 64] := by decide +kernel

/-- Nothing falls due where no arbiter is in use; 12 us pass on die 24 for a frame that went at its reading 3. -/
theorem test_conversation_time :
    (∀ l k b, Lapses (talking l) k b) ∧ (talk [kept 7 14]).unacked.head? = some (kept 7 14) ∧
    (let s := { talking [kept 7 14] with timers := [(.retry 3 64 7, 24, 3)] }
     let u := after (exec (.controlRetry 3 64) s)
     (u.clock 24).count = 12003 ∧ (u.clock 0).count = 0 ∧ u.timers.filter (fun e => e.1 == .retry 3 64 7) =
       [(.retry 3 64 7, (s.cport 3).die 3, (u.clock ((s.cport 3).die 3)).count)]) :=
  ⟨fun _ _ _ => rfl, rfl, by decide +kernel⟩

/-! ### Collectives -/

def collId : Nat := 2 * 2 ^ 26 + 7
/-- Group 2 has `n` members; the house of rank 0 is 5, or 64 where house 5 is rank 1. -/
def grouped (n : Nat) (f : State → State) : State :=
  f { laned both with set := { device.set with
    routes := [(64, 11)]
    live := liveSet (liveSet [] (keyGroup + 2) n) keyRank (if n = 1 then 5 else 64 + 5 * 2 ^ 16) } }

def cBegin (rank n : Nat) : Cmd := command 0x0D10 (args [(32, collId), (4, 1), (14, rank), (15, n), (2, 1), (16, 0)]) []

theorem test_coll_begin :
    let s := asks (grouped 1 id) (cBegin 0 1)
    let t := asks (grouped 2 id) (cBegin 1 2)
    (Starts s 4 0x0D10 (cBegin 0 1) ∧ Starts t 4 0x0D10 (cBegin 1 2)) ∧ isPeerPort (cBegin 0 1).port = false ∧
    (cBegin 0 1).arg 0 = collId ∧ s.ownBeginOk (cBegin 0 1) = true ∧ t.ownBeginOk (cBegin 1 2) = true ∧ s.colls = [] ∧
    collChildren ((cBegin 0 1).arg 2) ((cBegin 0 1).arg 3) = [] ∧ collChildren ((cBegin 1 2).arg 2) ((cBegin 1 2).arg 3) = [] ∧
    (cBegin 0 1).arg 2 = 0 ∧ (cBegin 1 2).arg 2 = 1 ∧ t.rankHouse 2 (collParent 1 2) = 64 ∧ t.house = 5 ∧ t.route 64 = some 3 ∧
    t.convs = [] ∧ (after (exec (.linkCollBegin 4) s)).cur.cmds = [] ∧ (after (exec (.linkCollBegin 4) t)).cur.sent.length = 1 :=
  ⟨⟨starts_of (by decide +kernel), starts_of (by decide +kernel)⟩, by decide +kernel⟩

/-- Rank 0 of a group of one, in a phase. -/
def begun (phase : Nat) : Coll := { Coll.held collId with
  begun := true
  kind := 1
  accfmt := 1
  size := 1
  phase := phase
  complete := true }
def inColl (k : Coll) : State := grouped 1 (fun s => { s with colls := [k] })
def cPhase (op : Nat) : Cmd := command op (args [(32, collId), (14, 0)]) []

theorem test_coll_phases :
    let s := asks (inColl (begun 0)) (cPhase 0x0D11)
    let t := asks (inColl (begun 1)) (cPhase 0x0D12)
    (Starts s 4 0x0D11 (cPhase 0x0D11) ∧ Starts t 4 0x0D12 (cPhase 0x0D12)) ∧ isPeerPort (cPhase 0x0D11).port = false ∧
    (s.coll collId = some (begun 0) ∧ t.coll collId = some (begun 1)) ∧ (begun 0).begun = true ∧ (begun 0).aborted = none ∧
    (begun 0).complete = true ∧ (begun 0).rank = 0 ∧ (cPhase 0x0D11).arg 0 = collId ∧ (cPhase 0x0D11).arg 1 = 0 ∧
    (begun 0).children = [] ∧ collChildren 0 1 = [] ∧ s.casts.leaves = [] ∧
    (after (exec (.linkCollReady 4) s)).colls = [begun 1] ∧ (after (exec (.linkCollEnd 4) t)).colls = [] :=
  ⟨⟨starts_of (by decide +kernel), starts_of (by decide +kernel)⟩, by decide +kernel⟩

def cWaiting : Cmd := { cPhase 0x0D11 with st := .started, wait := .coll collId }
def unfinished : Coll := { begun 1 with
  complete := false
  own := some 4 }
def aborted : Coll := { begun 1 with aborted := some stCancelled }

/-- The commands of two children are held for a collective that has not begun here. -/
def holdsTwo : Coll := { Coll.held collId with children := [(1, 0, 4), (2, 0, 5)] }
def cHeld : Cmd := { peerCmd 0x0D10 [(32, collId)] with st := .started, wait := .coll collId }

theorem coll_lapses (k : Coll) (c : Cmd) (t : Timer) (b : Nat) : Lapses (asks (inColl k) c) t b := rfl

theorem test_coll_expiries :
    let s := asks (inColl unfinished) cWaiting
    s.coll collId = some unfinished ∧ unfinished.begun = true ∧ unfinished.aborted = none ∧ unfinished.complete = false ∧
    unfinished.rank = 0 ∧ unfinished.own = some 4 ∧ unfinished.children = [] ∧ s.cmd 4 = some cWaiting ∧ s.boot.phase = 5 ∧
    s.counter 0x1902 0 = 0 ∧ (after (exec (.collPhaseTimeout collId) s)).counter 0x1902 0 = 1 ∧
    (inColl holdsTwo).coll collId = some holdsTwo ∧ holdsTwo.begun = false ∧ holdsTwo.children = [(1, 0, 4), (2, 0, 5)] ∧
    (let u := after (exec (.collHeldTimeout collId) (asks (inColl holdsTwo) cHeld))
     u.cur.cmds = [] ∧ u.colls = [{ holdsTwo with children := [(2, 0, 5)] }] ∧
     (after (exec (.collHeldTimeout collId) u)).colls = []) ∧
    (inColl aborted).coll collId = some aborted ∧ aborted.aborted.isSome = true ∧
    (after (exec (.collEntryExpiry collId) (inColl aborted))).colls = [] := by decide +kernel

end Sys2Proof.Tests
end

