-- ==== Sys2Proof/Tests/Ports.lean ====
section
/-! SUPPORT. Receipt of commands and the Arcade link: states that meet the hypotheses of the statements, with values by
hand. -/

namespace Sys2Proof.Tests
open Sys2Proof.Machine
set_option Elab.async false

/-! ### Receipt -/

def nop : BitVec 512 := packet 0x0100 0

/-- sys.nop by every port: it is queued, and answered ACCEPTED with MORE 1 but by Arcade, whose ring has no slots. -/
theorem test_receipt :
    device.receiptStatus .i3c nop [] 0 = (stOk, 0) ∧ device.receiptStatus .arcade nop [] 0 = (stOk, 0) ∧
    device.receiptStatus .jtag nop [] 0 = (stOk, 0) ∧ device.arc.linkUp = true ∧ 2 ≤ device.boot.phase ∧
    device.boot.strip.isSome = true ∧ device.boot.stripFailed = false ∧ device.fuses.debug = false ∧
    (after (exec (.i3cPrivateWrite nop []) device)).cur.cmds.length = 1 ∧
    (reply (after (exec (.i3cPrivateWrite nop []) device))).map (fun r => r.1) = some stAccepted ∧
    (after (exec (.arcadeCmd nop []) device)).cur.cmds.length = 1 := by decide +kernel

def debugDevice : State := { device with fuses := { Fuses.reset with debug := true } }

theorem test_receipt_jtag :
    debugDevice.fuses.debug = true ∧ debugDevice.receiptStatus .jtag nop [] 0 = (stOk, 0) ∧
    (after (exec (.jtagCommand nop []) debugDevice)).cur.cmds.length = 1 := by decide +kernel

/-- A ring of 16 slots at byte 0x200, at its last slot, with a reply that waits. -/
def ringing (prod : Nat) : State := { device with
  arc := { Arcade.reset with linkUp := true, replyBase := 0x200, replySlots := 16, replyProd := prod, replyCons := 5, waiting := [(.receipt, 0x1234)] } }

/-- With a ring, ACCEPTED is written into it, and waits while another reply does; NO_ACCEPT draws none. -/
theorem test_receipt_ring :
    (let s : State := { ringing 3 with arc := { (ringing 3).arc with waiting := [] } }
     s.receiptStatus .arcade nop [] 0 = (stOk, 0) ∧ s.arc.waiting = [] ∧ s.arc.full = false ∧ hNoAccept nop = false ∧
     (let u := after (exec (.arcadeCmd nop []) s)
      fld (Sparse.get 0 u.mem.comp 1).toNat (8 * 96) 24 = 0x010001 ∧ u.arc.replyProd = 4)) ∧
    (let u := after (exec (.arcadeCmd nop []) (ringing 3))
     u.arc.waiting = [(.receipt, 0x1234), (.receipt, mkReply nop stAccepted 0 true [])]) ∧
    (let h : BitVec 512 := BitVec.ofNat 512 (withCrc64 (0x0100 + 1 <<< 16 + 1 <<< 34))
     hNoAccept h = true ∧ device.receiptStatus .i3c h [] 0 = (stOk, 0) ∧
     (after (exec (.i3cPrivateWrite h []) device)).tx = []) := by decide +kernel

/-- A bad check word; an opcode of no row; prog.put by I3C, which is for the Operator only. -/
theorem test_receipt_refused :
    crcOk64 (nop ^^^ 1).toNat = false ∧ device.receiptStatus .i3c (nop ^^^ 1) [] 0 = (stBadCrc, 0) ∧
    crcOk64 (packet 0x01FF 0).toNat = true ∧ hPayloadLen (packet 0x01FF 0) = 0 ∧ fld (packet 0x01FF 0).toNat 384 32 = 0 ∧
    cmdSpec (hOpcode (packet 0x01FF 0)) = none ∧ device.receiptStatus .i3c (packet 0x01FF 0) [] 0 = (stBadOpcode, 0) ∧
    crcOk64 (packet 0x0301 0).toNat = true ∧ (cmdSpec (hOpcode (packet 0x0301 0))).map (fun e => clsOk Port.i3c.cls e.1) = some false ∧
    device.receiptStatus .i3c (packet 0x0301 0) [] 0 = (stNotPermitted, 2) ∧ device.boot.phase = 5 ∧
    device.counter 0x1601 0 = 0 ∧ (after (exec (.i3cPrivateWrite (packet 0x0301 0) []) device)).counter 0x1601 0 = 1 ∧
    (reply (after (exec (.i3cPrivateWrite (packet 0x0301 0) []) device))).map (fun r => (r.1, r.2.1)) =
      some (stNotPermitted, 2) := by decide +kernel

/-- The same bad header on Arcade, whose ring has room or a reply that waits, and on JTAG. -/
theorem test_refused_elsewhere :
    let bad := nop ^^^ 1
    let empty : State := { ringing 3 with arc := { (ringing 3).arc with waiting := [] } }
    device.receiptStatus .arcade bad [] 0 = (stBadCrc, 0) ∧ debugDevice.receiptStatus .jtag bad [] 0 = (stBadCrc, 0) ∧ empty.receiptStatus .arcade bad [] 0 = (stBadCrc, 0) ∧
    empty.arc.full = false ∧ empty.arc.linkUp = true ∧ debugDevice.counter 0x1601 0 = 0 ∧
    fld (Sparse.get 0 (after (exec (.arcadeCmd bad []) empty)).mem.comp 1).toNat (8 * 96 + 16) 8 = stBadCrc ∧
    (after (exec (.arcadeCmd bad []) (ringing 3))).arc.waiting.length = 2 ∧
    (after (exec (.arcadeCmd bad []) (ringing 3))).cur.cmds = [] ∧
    (after (exec (.jtagCommand bad []) debugDevice)).tx = [.reply .jtag 0 (mkReply bad stBadCrc 0 false [])] := by
  decide +kernel

/-! ### Arcade -/

theorem test_arcade_ctl :
    device.arc.linkUp = true ∧ device.arc.waiting = [] ∧ device.arcadeOpen = false ∧ device.boot.phase = 5 ∧
    device.counter 0x1501 0 = 0 ∧ slotsOk 16 = true ∧ device.power.rails = true ∧
    device.phyFailed 0 = false ∧ device.boot.stripFailed = false ∧ 4 ≤ device.boot.phase ∧
    (after (exec (.arcadeCtlWrite 1 (some 0x200)) device)).arc.replyBase = 0x200 ∧
    (after (exec (.arcadeCtlWrite 2 (some 0x0007000300000010)) device)).arc =
      { device.arc with replySlots := 16, replyCons := 3, intVector := 7 } ∧
    (after (exec (.arcadeCtlWrite 3 (some 1)) device)).arc.intEn = true ∧
    (after (exec (.arcadeCtlWrite 1 (some 0x100)) device)).counter 0x1501 0 = 1 ∧
    (after (exec (.arcadeCtlWrite 1 (some 0x100)) device)).tx = [.ctl 1 none] ∧
    (after (exec (.arcadeCtlWrite 0 none) device)).tx = [.ctl 0 (some 0x01000001)] ∧
    (after (exec (.arcadeCtlWrite 3 none) device)).tx = [.ctl 3 (some 0b0110)] ∧
    (after (exec .arcadeRetrain device)).arc.phase = true ∧
    ((ringing 3).arcadeOpen = true ∧ (ringing 3).arc.replySlots = 16 ∧ (ringing 3).cur.cmds = [] ∧
      (after (exec (.arcadeCtlWrite 2 (some 32)) (ringing 3))).arc = (ringing 3).arc ∧
      (after (exec (.arcadeCtlWrite 2 (some 32)) (ringing 3))).counter 0x1501 0 = 1 ∧
      (after (exec (.arcadeCtlWrite 1 (some 0x400)) (ringing 3))).arc = (ringing 3).arc) := by decide +kernel

/-- A PHY block of Arcade has failed: its port does not train again (R358). -/
def phyLost : State := { device with inv := { device.inv with records := [⟨6, true, 0, 1, 0⟩] } }

theorem test_retrain_failed :
    phyLost.phyFailed 0 = true ∧ after (exec .arcadeRetrain phyLost) = phyLost := ⟨by decide +kernel, rfl⟩

theorem test_reply_ring :
    (ringing 15).arc.waiting = (.receipt, 0x1234) :: [] ∧ (ringing 15).arc.full = false ∧
    ((ringing 15).arc.replyBase + 32 * (ringing 15).arc.replyProd) % 32 = 0 ∧
    (after (exec .replyRingWrite (ringing 15))).arc.replyProd = 0 ∧ (after (exec .replyRingWrite (ringing 15))).arc.phase = false ∧
    fld (Sparse.get 0 (after (exec .replyRingWrite (ringing 15))).mem.comp 1).toNat (8 * 480) 41 = 0x10000001234 ∧
    (ringing 3).arc.full = false ∧ (after (exec .replyRingWrite (ringing 3))).arc.replyProd = 4 := by decide +kernel

/-- A command's final reply waits: once it is written the command has been replied to. -/
theorem test_reply_final :
    let s : State := { (ringing 3) with
      arc := { (ringing 3).arc with waiting := [(.final 4, 7)] }
      cur := { device.cur with cmds := [{ command 0x0100 0 [] with st := .done }] } }
    s.arc.waiting = (.final 4, 7) :: [] ∧ s.arc.full = false ∧ (after (exec .replyRingWrite s)).cur.cmds = [] ∧
    (after (exec .replyRingWrite s)).cur.replied = [{ command 0x0100 0 [] with st := .replied }] := by decide +kernel

/-- Companion row 5 is being written with ones in its line 2. -/
def snooped : State := { device with
  tiles := [(0, { Tile.reset with queues := [(2, { queue2 with
    started := [{ Started.fresh 0 0 none with out := [(2 ^ 61 + 512 * 5, row (7 <<< 1024), 0)] }] })] })] }

theorem test_snoop_held :
    snooped.arc.linkUp = true ∧ snooped.lineHeld 42 = some (0, 2, 0, 0, row (7 <<< 1024)) ∧
    (after (exec (.arcadeSnp 42) snooped)).tx = [.srsp 42 (some 7)] :=
  ⟨by decide +kernel, by decide +kernel, by decide +kernel⟩

theorem test_snoop_invalid :
    snooped.lineHeld 48 = none ∧ (after (exec (.arcadeSnp 48) snooped)).tx = [.srsp 48 none] :=
  ⟨by decide +kernel, by decide +kernel⟩

end Sys2Proof.Tests
end

