-- ==== Sys2Proof/Tests/Signed.lean ====
section
/-! SUPPORT. A Curator image and a settings block that pass every check of Table 16-6, signed with the key whose number is 1
and the nonce 1: the public key is the base point of the curve, r its x coordinate, and s the digest plus r. -/

namespace Sys2Proof.Tests
open Sys2Proof.Machine
set_option Elab.async false

def pubKey : Bytes := [0x04] ++ bytesBE 48 ecGx ++ bytesBE 48 ecGy
/-- A signature: r, and the s given, as a number of 96 bytes. -/
def signature (s : Nat) : Nat := natOfBytes (bytesBE 48 (ecGx % ecQ) ++ bytesBE 48 s)

/-- s of the endorsement, of the image, and of the settings block. -/
def endorseS : Nat :=
  0x74113D50A5F62EA8338F6ADC3EED11884074C0C7F7258710FE7D2910D4AFDF2BB5FA5C3921580307090E2F488D8FC4BC
def imageS : Nat :=
  0x747644278C8DB08428E8F5A550F891B46F54F384F341D355F04EB7D1D3326214E0C693B321A4DDAF7C179E4750894BA
def blockS : Nat :=
  0xE92B7A8387C3F3050E6C49B5B078A650AB4031044926C5FBB3BF8D74697806E424CDD2B161DD0F199683A245FA6F828

/-- The header row of a Curator image (Table 16-5): version 4, security count 2, and one row of code, the program store. -/
def imageHeader : Nat :=
  withCrcRow (pack [(0, 32, 0x41525543), (32, 16, 1), (64, 32, 4), (96, 32, 2), (128, 32, 1536), (160, 16, 1),
    (192, 776, natOfBytes pubKey), (968, 768, signature endorseS), (1736, 32, 7), (1768, 16, 1)])
/-- The image: its header, a row of zeros, and the signature row. -/
def imageRows : List Row := [row imageHeader, 0, row (signature imageS)]

/-- A settings block without entries, SB_SERIAL 6 (Table 16-7), and its signature row. -/
def blockHeader : Nat :=
  withCrcRow (pack [(0, 32, 0x54455350), (32, 16, 1), (96, 32, 1024), (128, 64, 6), (256, 776, natOfBytes pubKey)])
def blockRows : List Row := [row blockHeader, row (signature blockS)]

/-! ### What the checks rest on -/

theorem ite_ok {ε α : Type} {p : Prop} [Decidable p] {e : ε} {x : Except ε α} {i : α} :
    (if p then .error e else x) = .ok i ↔ ¬ p ∧ x = .ok i := by
  split <;> simp [*]

/-- An image that passes for upd.verify passes by itself. -/
theorem checkCurator_none {s : State} {b : Bytes} {n : Nat} {i : Image} (h : s.checkCurator b (some n) = .ok i) :
    s.checkCurator b none = .ok i := by
  unfold State.checkCurator at h ⊢
  simp only [ite_ok] at h ⊢
  obtain ⟨h1, h2, h3, h4⟩ := h
  exact ⟨h1, h2, fun k => h3 (by simp only [Asked.differs, Bool.false_eq_true, or_false] at k; exact k.imp_right Or.inl), h4⟩

theorem checkBlock_none {s : State} {b : Bytes} {n : Nat} {i : BlockRead} (h : s.checkBlock b (some n) = .ok i) :
    s.checkBlock b none = .ok i := by
  unfold State.checkBlock at h ⊢
  simp only [ite_ok] at h ⊢
  obtain ⟨h1, h2, h3, h4⟩ := h
  refine ⟨h1, h2, fun k => h3 (by simp only [Asked.differs, Bool.false_eq_true, or_false] at k; exact k.imp_right Or.inl), ?_⟩
  split at h4
  · cases h4
  · simp only [ite_ok] at h4 ⊢
    obtain ⟨h4, h5, h6, h7, h8⟩ := h4
    exact ⟨h4, h5, h6, by simp, h8⟩

theorem checkCurator_fuses {s u : State} (b : Bytes) (a : Asked) (h : s.fuses = u.fuses) :
    s.checkCurator b a = u.checkCurator b a := by
  unfold State.checkCurator; rw [h]

/-- Without entries, what a key's value is checked by does not matter. -/
theorem checkBlock_same {s u : State} (b : Bytes) (a : Asked) (h : s.fuses = u.fuses) (hb : s.boot.block = u.boot.block)
    (hn : fld (natOfBytes (b.take 512)) 64 32 = 0) : s.checkBlock b a = u.checkBlock b a := by
  have e : blockEntries b 0 = some [] := rfl
  unfold State.checkBlock State.keyRefused State.liveSerial
  simp only [h, hb, hn, e, List.any_nil]
  rfl

/-! ### The image and the block pass -/

set_option maxRecDepth 100000 in
theorem image_checks :
    (State.reset.checkCurator (bytesOfNat 1536 (natOfRows imageRows)) (some 1536)).toOption.isSome = true := by decide +kernel
set_option maxRecDepth 100000 in
theorem block_checks :
    (State.reset.checkBlock (bytesOfNat 1024 (natOfRows blockRows)) (some 1024)).toOption.isSome = true := by decide +kernel


theorem ok_some {ε α : Type} {r : Except ε α} (h : r.toOption.isSome = true) : ∃ x, r = .ok x := by
  cases r with
  | error e => cases h
  | ok x => exact ⟨x, rfl⟩

set_option maxRecDepth 100000 in
theorem block_count : fld (natOfBytes ((bytesOfNat 1024 (natOfRows blockRows)).take 512)) 64 32 = 0 := by decide +kernel

theorem image_passes : ∃ i, State.reset.checkCurator (bytesOfNat 1536 (natOfRows imageRows)) (some 1536) = .ok i :=
  ok_some image_checks
theorem block_passes : ∃ b, State.reset.checkBlock (bytesOfNat 1024 (natOfRows blockRows)) (some 1024) = .ok b :=
  ok_some block_checks

theorem curatorSlot_of {s : State} {slot : Nat} (hf : s.fuses = State.reset.fuses)
    (hb : (s.flash 0).bytes (offCurator slot)
      (max (min (fld ((s.flash 0).row (offCurator slot)).toNat 128 32) (slotBytes 0)) 512) =
        bytesOfNat 1536 (natOfRows imageRows)) : ∃ i, s.curatorSlot 0 slot = some i := by
  obtain ⟨i, hi⟩ := image_passes
  unfold State.curatorSlot
  simp only [hb, checkCurator_fuses _ _ hf, checkCurator_none hi]
  exact ⟨_, rfl⟩

end Sys2Proof.Tests
end

