-- ==== Sys2Proof/WellFormed.lean ====
section
/-! DEFINITION. Which commands are well formed: every operand lies in the range that the spec gives the part it names
(tiles 0-1,023, work lists 0-3, queues 0-7, ports, dies, banks, ...). -/

namespace Sys2Proof

/-- A bank identifier names a bank: physical tile, scratchpad bank 0-15, or array 0-3 with its bank 0-3 (R199, R200). -/
def BankId.ok : BankId → Bool
  | .scr p b => decide (p < 1152) && decide (b < 16)
  | .acc p a b => decide (p < 1152) && decide (a < 4) && decide (b < 4)

/-- A resource of Table 12-1. -/
def ResId.ok : ResId → Bool
  | .bank b => b.ok
  | .hbm c => decide (c < 256)
  | .xing d l _ => decide (d < 32) && decide (l < 24)
  | .mesh p o => decide (p < 1152) && decide (o < 5)
  | .cwy n => decide (n < 8)

def tileOk (t : Nat) : Bool := decide (t < 1024)
def listOk (t l : Nat) : Bool := decide (t < 1024) && decide (l < 4)
def queueOk (t q : Nat) : Bool := decide (t < 1024) && decide (q < 8)
/-- A requester names a tile, and a queue or a window of it. -/
def Requester.ok : Requester → Bool
  | .stream t q _ => queueOk t q
  | .window t n => tileOk t && decide (n < 16)
  | .operand => true
  | .fetch => true
  | .engine => true
  | .internal => true
  | .service => true
  | .writeBack => true
  | .control => true
  | .result => true
  | .debug => true

/-- The width of SOURCE (Table 12-2). -/
def ReqEntry.ok : ReqEntry → Bool
  | .first k _ _ _ source => k.ok && decide (source < 2 ^ 16)
  | .crossed _ => true

def portOk (p : Nat) : Bool := decide (p < 8)
def houseOk (h : Nat) : Bool := decide (h < 16384)

/-- Test results name parts of a tile: columns 0-67 of arrays 0-3, bank rows, spare rows included. -/
def TestResult.ok (r : TestResult) : Bool :=
  r.badCols.all (fun c => decide (c.1 < 4) && decide (c.2 < 68)) &&
  r.badRows.all (fun c => decide (c.1 < 16) && decide (c.2 < 1600)) &&
  r.badAcc.all (fun c => decide (c.1 < 4) && decide (c.2.1 < 4) && decide (c.2.2 < 136)) && decide (r.katFails ≤ 4)

def BringUp.ok (r : BringUp) : Bool :=
  r.tiles.all (fun e => decide (e.1 < 1152) && e.2.ok) && r.badPhys.all (fun d => decide (d < 32))

def TrainResult.ok (r : TrainResult) : Bool :=
  r.lanes.all (fun e => portOk e.1) && r.expanders.all (fun e => decide (e.1 < 4) && decide (e.2.2 ≤ 2 ^ 33))

/-- A command is well formed. -/
def Instr.ok : Instr → Bool
  | .nop t l => listOk t l
  | .ctlEnd t l => listOk t l
  | .ctlLi t l => listOk t l
  | .ctlAdd t l => listOk t l
  | .ctlLd t l => listOk t l
  | .ctlBr t l => listOk t l
  | .ctlJmp t l => listOk t l
  | .ctlInfo t l => listOk t l
  | .ctlDfind t l => listOk t l
  | .syncWait t l => listOk t l
  | .syncWaitRelease t l => listOk t l
  | .syncAdd t l => listOk t l
  | .syncSet t l => listOk t l
  | .arrMm t l => listOk t l
  | .spMm t l => listOk t l
  | .accOpen t l => listOk t l
  | .accClose t l => listOk t l
  | .accRec t l => listOk t l
  | .accAdopt t l => listOk t l
  | .concAnd t l => listOk t l
  | .concOr t l => listOk t l
  | .concAndn t l => listOk t l
  | .concPop t l => listOk t l
  | .concScan t l => listOk t l
  | .concMatch t l => listOk t l
  | .mrgRun t l => listOk t l
  | .dispRun t l => listOk t l
  | .vecLd t l => listOk t l
  | .vecSt t l => listOk t l
  | .vecAdd t l => listOk t l
  | .vecSub t l => listOk t l
  | .vecMul t l => listOk t l
  | .vecFma t l => listOk t l
  | .vecMax t l => listOk t l
  | .vecMin t l => listOk t l
  | .vecCmp t l => listOk t l
  | .vecSel t l => listOk t l
  | .vecExp t l => listOk t l
  | .vecRcp t l => listOk t l
  | .vecRsq t l => listOk t l
  | .vecRsum t l => listOk t l
  | .vecRmax t l => listOk t l
  | .vecBcast t l => listOk t l
  | .vecCmask t l => listOk t l
  | .vecCvt t l => listOk t l
  | .vecRand t l => listOk t l
  | .vecJoin t l => listOk t l
  | .strGo t l => listOk t l
  | .strCancel t l => listOk t l
  | .cNop t l => listOk t l
  | .cEnd t l => listOk t l
  | .cLi t l => listOk t l
  | .cAdd t l => listOk t l
  | .cBr t l => listOk t l
  | .cJmp t l => listOk t l
  | .cInfo t l => listOk t l
  | .cWait t l => listOk t l
  | .cSadd t l => listOk t l
  | .cMm t l => listOk t l
  | .cDrain t l => listOk t l
  | .cVec t l => listOk t l
  | .cSgo t l => listOk t l
  | .cScancel t l => listOk t l
  | .operationComplete t _ => tileOk t
  | .rampPhaseEnd t a => tileOk t && decide (a < 4)
  | .launchEnd t => tileOk t
  | .strCopy t q => queueOk t q
  | .strGather t q => queueOk t q
  | .strMatch t q => queueOk t q
  | .winctlOpen t q => queueOk t q
  | .winctlClose t q => queueOk t q
  | .winctlReturn t q => queueOk t q
  | .winctlRead t q => queueOk t q
  | .rowReadReturn t q _ _ => queueOk t q
  | .rowWriteComplete t q => queueOk t q
  | .cancelComplete t q => queueOk t q
  | .cancelTimeout t q => queueOk t q
  | .creditRequest _ => true
  | .creditGrant _ => true
  | .windowRowArrival _ => true
  | .arcadeWwr t w gen off _ => tileOk t && decide (w < 16) && decide (gen < 256) && decide (off < 65536)
  | .rngRefill t slot => tileOk t && decide (slot < 64)
  | .arbiterRequest r a => r.ok && a.ok
  | .arbiterRelease r => r.ok
  | .deadlinePassed r _ => r.ok
  | .watchdogBite r _ => r.ok
  | .patrolRead b => b.ok
  | .eccWriteBack b => b.ok
  | .combineLateCheck b => b.ok
  | .hbmRefresh c => decide (c < 256)
  | .refClockLoss d => decide (d < 32)
  | .refClockReturn d => decide (d < 32)
  | .arcadeCmd _ _ => true
  | .i3cPrivateWrite _ _ => true
  | .jtagCommand _ _ => true
  | .arcadeCtlWrite w _ => decide (w < 8)
  | .arcadeSnp line => decide (line < 2 ^ 46)
  | .arcadeRetrain => true
  | .replyRingWrite => true
  | .cmdFrame p _ => portOk p
  | .rplFrame p _ => portOk p
  | .dataFrame p _ => portOk p
  | .tallyFrame p _ => portOk p
  | .ackFrame p _ => portOk p
  | .helloFrame p _ => portOk p
  | .laneFrame p _ => portOk p
  | .helloSend p _ => portOk p
  | .controlRetry p h => portOk p && houseOk h
  | .peerLost p h => portOk p && houseOk h
  | .conversationFree p h => portOk p && houseOk h
  | .laneLockLoss p => portOk p
  | .laneBerCheck p _ => portOk p
  | .laneTestDone p _ _ => portOk p
  | .cxlLinkDown x _ => decide (x < 4)
  | .cxlExpanderAttach x _ rows => decide (x < 4) && decide (rows ≤ 2 ^ 33)
  | .curatorHeartbeat => true
  | .standbyTakeover => true
  | .tileDrained t => tileOk t
  | .recalDone t res => tileOk t && res.ok
  | .apertureDrained a => decide (a < 64)
  | .inventoryFlush _ _ => true
  | .castResubscribe q => decide (q < 256)
  | .collPhaseTimeout id => decide (id < 2 ^ 32)
  | .collHeldTimeout id => decide (id < 2 ^ 32)
  | .collEntryExpiry id => decide (id < 2 ^ 32)
  | .inputRise _ => true
  | .pwrGoodRise => true
  | .inputLoss _ => true
  | .inputOvervoltage _ => true
  | .resetNFall _ => true
  | .resetNRise => true
  | .stripSelfTest _ _ => true
  | .d0VerdictTimeout _ => true
  | .holdingsRead => true
  | .dieBringUp res => res.ok
  | .curatorStart up => up.ok
  | .powerInterval _ temps => decide (temps.length ≤ 48)
  | .peakLimit _ => true
  | .capHold _ => true
  | .limiterRelease _ => true
  | .dieThrottle d _ => decide (d < 32)
  | .dieOverTemp d _ => decide (d < 32)
  | .stackHot m _ => decide (m < 16)
  | .thermalTrip onDie i _ => if onDie then decide (i < 32) else decide (i < 16)
  | .lowFlow _ => true
  | .sysNop _ => true
  | .sysInfo _ => true
  | .sysStatus _ => true
  | .sysReset _ => true
  | .sysPower _ => true
  | .sysTelemetry _ => true
  | .sysBufRead _ => true
  | .cfgRead _ => true
  | .cfgWrite _ => true
  | .cfgCommit _ => true
  | .cfgDiscard _ => true
  | .cfgApertureAdd _ => true
  | .cfgApertureDel _ => true
  | .progLoad _ => true
  | .progPut _ => true
  | .progCopy _ => true
  | .progLaunch _ => true
  | .progCancel _ => true
  | .winOpen _ => true
  | .winClose _ => true
  | .winReturn _ => true
  | .winRead _ => true
  | .winCredit _ => true
  | .streamQread _ => true
  | .streamQwrite _ => true
  | .streamGo _ => true
  | .streamCancel _ => true
  | .ctxSave _ => true
  | .ctxRestore _ => true
  | .ctxCheck _ => true
  | .rngRead _ => true
  | .rngWrite _ => true
  | .ctrRead _ => true
  | .ctrSnapshot _ => true
  | .ctrClear _ => true
  | .invRead _ => true
  | .invDrain _ => true
  | .invRecal _ => true
  | .invRetireTile _ => true
  | .invPresent _ => true
  | .invRetireRow _ => true
  | .invRelocate _ => true
  | .invRecord _ _ _ => true
  | .castSubscribe _ => true
  | .castUnsubscribe _ => true
  | .castStatus _ => true
  | .takeoverOffer _ => true
  | .takeoverAssume _ => true
  | .takeoverAnnounce _ => true
  | .updStage _ _ _ => true
  | .updVerify _ => true
  | .updActivate _ _ _ => true
  | .updStatus _ => true
  | .attestReport _ => true
  | .attestCerts _ => true
  | .linkStatus _ => true
  | .linkSpare _ => true
  | .linkQuarantine _ => true
  | .linkDigest _ => true
  | .linkCollBegin _ => true
  | .linkCollReady _ => true
  | .linkCollEnd _ => true
  | .overTemperatureEnd onDie i _ => if onDie then decide (i < 32) else decide (i < 16)
  | .flowRestored _ => true
  | .inputOutOfRange _ => true
  | .railLeavesRegulation => true
  | .stripFailure => true
  | .portTrainingDone p _ => portOk p

end Sys2Proof
end

