-- ==== Sys2Proof/Tests/Slice0.lean ====
section
/-! SUPPORT. Smoke tests of WellFormed: a term for each check, which the check refuses; and the decoder, of which the
table's rows ask nothing. -/

namespace Sys2Proof.Tests
open Sys2Proof.Machine
set_option Elab.async false

theorem test_ill_formed_1 : (
  ([.nop 1024 0, .nop 0 4, .ctlEnd 1024 0, .ctlEnd 0 4, .ctlLi 1024 0, .ctlLi 0 4, .ctlAdd 1024 0, .ctlAdd 0 4,
   .ctlLd 1024 0, .ctlLd 0 4, .ctlBr 1024 0, .ctlBr 0 4, .ctlJmp 1024 0, .ctlJmp 0 4, .ctlInfo 1024 0,
   .ctlInfo 0 4, .ctlDfind 1024 0, .ctlDfind 0 4, .syncWait 1024 0, .syncWait 0 4, .syncWaitRelease 1024 0,
   .syncWaitRelease 0 4, .syncAdd 1024 0, .syncAdd 0 4] : List Instr).all (fun i => !i.ok)) = true := by decide

theorem test_ill_formed_2 : (
  ([.syncSet 1024 0, .syncSet 0 4, .arrMm 1024 0, .arrMm 0 4, .spMm 1024 0, .spMm 0 4, .accOpen 1024 0,
   .accOpen 0 4, .accClose 1024 0, .accClose 0 4, .accRec 1024 0, .accRec 0 4, .accAdopt 1024 0, .accAdopt 0 4,
   .concAnd 1024 0, .concAnd 0 4, .concOr 1024 0, .concOr 0 4, .concAndn 1024 0, .concAndn 0 4, .concPop 1024 0,
   .concPop 0 4, .concScan 1024 0, .concScan 0 4] : List Instr).all (fun i => !i.ok)) = true := by decide

theorem test_ill_formed_3 : (
  ([.concMatch 1024 0, .concMatch 0 4, .mrgRun 1024 0, .mrgRun 0 4, .dispRun 1024 0, .dispRun 0 4, .vecLd 1024 0,
   .vecLd 0 4, .vecSt 1024 0, .vecSt 0 4, .vecAdd 1024 0, .vecAdd 0 4, .vecSub 1024 0, .vecSub 0 4, .vecMul 1024 0,
   .vecMul 0 4, .vecFma 1024 0, .vecFma 0 4, .vecMax 1024 0, .vecMax 0 4, .vecMin 1024 0, .vecMin 0 4,
   .vecCmp 1024 0, .vecCmp 0 4] : List Instr).all (fun i => !i.ok)) = true := by decide

theorem test_ill_formed_4 : (
  ([.vecSel 1024 0, .vecSel 0 4, .vecExp 1024 0, .vecExp 0 4, .vecRcp 1024 0, .vecRcp 0 4, .vecRsq 1024 0,
   .vecRsq 0 4, .vecRsum 1024 0, .vecRsum 0 4, .vecRmax 1024 0, .vecRmax 0 4, .vecBcast 1024 0, .vecBcast 0 4,
   .vecCmask 1024 0, .vecCmask 0 4, .vecCvt 1024 0, .vecCvt 0 4, .vecRand 1024 0, .vecRand 0 4, .vecJoin 1024 0,
   .vecJoin 0 4, .strGo 1024 0, .strGo 0 4] : List Instr).all (fun i => !i.ok)) = true := by decide

theorem test_ill_formed_5 : (
  ([.strCancel 1024 0, .strCancel 0 4, .cNop 1024 0, .cNop 0 4, .cEnd 1024 0, .cEnd 0 4, .cLi 1024 0, .cLi 0 4,
   .cAdd 1024 0, .cAdd 0 4, .cBr 1024 0, .cBr 0 4, .cJmp 1024 0, .cJmp 0 4, .cInfo 1024 0, .cInfo 0 4,
   .cWait 1024 0, .cWait 0 4, .cSadd 1024 0, .cSadd 0 4, .cMm 1024 0, .cMm 0 4, .cDrain 1024 0, .cDrain 0 4] : List Instr).all (fun i => !i.ok)) = true := by decide

theorem test_ill_formed_6 : (
  ([.cVec 1024 0, .cVec 0 4, .cSgo 1024 0, .cSgo 0 4, .cScancel 1024 0, .cScancel 0 4, .operationComplete 1024 0,
   .rampPhaseEnd 1024 0, .rampPhaseEnd 0 4, .launchEnd 1024, .strCopy 1024 0, .strCopy 0 8, .strGather 1024 0,
   .strGather 0 8, .strMatch 1024 0, .strMatch 0 8, .winctlOpen 1024 0, .winctlOpen 0 8, .winctlClose 1024 0,
   .winctlClose 0 8, .winctlReturn 1024 0, .winctlReturn 0 8, .winctlRead 1024 0, .winctlRead 0 8] : List Instr).all (fun i => !i.ok)) = true := by decide

theorem test_ill_formed_7 : (
  ([.rowReadReturn 1024 0 0 .clean, .rowReadReturn 0 8 0 .clean, .rowWriteComplete 1024 0, .rowWriteComplete 0 8,
   .cancelComplete 1024 0, .cancelComplete 0 8, .cancelTimeout 1024 0, .cancelTimeout 0 8, .arcadeWwr 1024 0 0 0 0,
   .arcadeWwr 0 16 0 0 0, .arcadeWwr 0 0 256 0 0, .arcadeWwr 0 0 0 65536 0, .rngRefill 1024 0, .rngRefill 0 64,
   .arbiterRequest (.hbm 256) (.first .operand true false false 0),
   .arbiterRequest (.hbm 0) (.first .operand true false false 65536),
   .arbiterRequest (.hbm 0) (.first (.stream 1024 0 0) true false false 0),
   .arbiterRequest (.hbm 0) (.first (.stream 0 8 0) true false false 0),
   .arbiterRequest (.hbm 0) (.first (.window 1024 0) true false false 0),
   .arbiterRequest (.hbm 0) (.first (.window 0 16) true false false 0), .arbiterRelease (.bank (.scr 1152 0)),
   .arbiterRelease (.bank (.scr 0 16)), .arbiterRelease (.xing 32 0 true), .arbiterRelease (.xing 0 24 true),
   .deadlinePassed (.mesh 1152 0) 0, .deadlinePassed (.mesh 0 5) 0, .watchdogBite (.cwy 8) false] : List Instr).all (fun i => !i.ok)) = true := by decide

theorem test_ill_formed_8 : (
  ([.patrolRead (.scr 0 16), .eccWriteBack (.acc 0 4 0), .eccWriteBack (.acc 1152 0 0),
   .combineLateCheck (.acc 0 0 4), .hbmRefresh 256, .refClockLoss 32, .refClockReturn 32, .arcadeCtlWrite 8 none,
   .arcadeSnp (2 ^ 46), .cmdFrame 8 ⟨0, 0, none, []⟩, .rplFrame 8 ⟨0, 0, none, []⟩, .dataFrame 8 ⟨0, 0, none, []⟩,
   .tallyFrame 8 ⟨0, 0, none, []⟩, .ackFrame 8 ⟨0, 0, none, []⟩, .helloFrame 8 ⟨0, 0, none, []⟩,
   .laneFrame 8 ⟨0, 0, none, []⟩, .helloSend 8 true, .controlRetry 8 0, .controlRetry 0 16384, .peerLost 8 0,
   .peerLost 0 16384, .conversationFree 8 0, .conversationFree 0 16384, .laneLockLoss 8] : List Instr).all (fun i => !i.ok)) = true := by decide

theorem test_ill_formed_9 : (
  ([.laneBerCheck 8 0, .laneTestDone 8 true true, .cxlLinkDown 4 0, .cxlExpanderAttach 4 0 1,
   .cxlExpanderAttach 0 0 (2 ^ 33 + 1), .tileDrained 1024, .recalDone 1024 ⟨[], [], [], 0, false⟩,
   .recalDone 0 ⟨[(4, 0)], [], [], 0, false⟩, .recalDone 0 ⟨[(0, 68)], [], [], 0, false⟩,
   .recalDone 0 ⟨[], [(16, 0)], [], 0, false⟩, .recalDone 0 ⟨[], [(0, 1600)], [], 0, false⟩,
   .recalDone 0 ⟨[], [], [(4, 0, 0)], 0, false⟩, .recalDone 0 ⟨[], [], [(0, 4, 0)], 0, false⟩,
   .recalDone 0 ⟨[], [], [(0, 0, 136)], 0, false⟩, .recalDone 0 ⟨[], [], [], 5, false⟩, .apertureDrained 64,
   .castResubscribe 256, .collPhaseTimeout (2 ^ 32), .collHeldTimeout (2 ^ 32), .collEntryExpiry (2 ^ 32),
   .dieBringUp ⟨[(1152, ⟨[], [], [], 0, false⟩)], []⟩, .dieBringUp ⟨[(0, ⟨[], [], [], 5, false⟩)], []⟩,
   .dieBringUp ⟨[], [32]⟩, .curatorStart ⟨true, [(8, true)], []⟩] : List Instr).all (fun i => !i.ok)) = true := by decide

theorem test_ill_formed_10 : (
  ([.curatorStart ⟨true, [], [(4, 0, 1)]⟩, .curatorStart ⟨true, [], [(0, 0, 2 ^ 33 + 1)]⟩,
   .powerInterval 0 (List.replicate 49 0), .dieThrottle 32 0, .dieOverTemp 32 0, .stackHot 16 0,
   .thermalTrip true 32 0, .thermalTrip false 16 0, .overTemperatureEnd true 32 0, .overTemperatureEnd false 16 0,
   .portTrainingDone 8 true] : List Instr).all (fun i => !i.ok)) = true := by decide

/-- The bounds themselves are well formed. -/
theorem test_well_formed :
    (([.nop 1023 3, .strCopy 1023 7, .rampPhaseEnd 0 3, .rngRefill 0 63, .hbmRefresh 255, .refClockLoss 31, .laneLockLoss 7,
       .patrolRead (.scr 1151 15), .eccWriteBack (.acc 1151 3 3), .thermalTrip true 31 0, .thermalTrip false 15 0,
       .sysNop 0] : List Instr).all Instr.ok) = true := by decide

/-- No row of the table has bits: no word spells a command. -/
theorem test_no_word_decodes : decodeTableWord 16 0 = none ∧ decodeTableWord 0 0 = none := by decide

end Sys2Proof.Tests
end

