-- ==== Sys2Proof/Tests/Startup.lean ====
section
/-! SUPPORT. Resets, start-up, power, heat and coolant: states that meet the hypotheses of the statements, with values by
hand. -/

namespace Sys2Proof.Tests
open Sys2Proof.Machine
set_option Elab.async false

/-- `s` in phase `k` of start-up. -/
def inPhase (k : Nat) (s : State) : State := { s with boot := { s.boot with phase := k } }
/-- `s` with another power state. -/
def powered (f : Power → Power) (s : State) : State := s.updPower f

/-! ### The input and the resets -/

def dark : State := powered (fun w => { w with
  housekeeping := false
  pwrGood := false }) State.reset
def heldInReset : State := powered (fun w => { w with resetHigh := false }) State.reset

theorem test_input :
    Sparse.wf Tile.reset State.reset.tiles = true ∧ dark.power.housekeeping = false ∧
    (after (exec (.inputRise 38001) dark)).power.housekeeping = true ∧
    (after (exec (.inputRise 38000) dark)).power.housekeeping = false ∧
    (after (exec (.inputRise 39999) dark)).alert = true ∧ (after (exec (.inputRise 60001) dark)).alert = true ∧
    State.reset.power.housekeeping = true ∧ State.reset.power.tripped = false ∧ State.reset.power.overVolt = false ∧
    (after (exec (.inputLoss 35999) device)).boot.phase = 0 ∧ (after (exec (.inputLoss 36000) device)).boot.phase = 5 ∧
    (after (exec (.inputOvervoltage 62001) device)).power.overVolt = true ∧
    (after (exec (.inputOvervoltage 62000) device)).boot.phase = 5 := by decide +kernel

theorem test_input_out_of_range :
    (after (exec (.inputOutOfRange 39999) device)).alert = true ∧ (after (exec (.inputOutOfRange 40000) device)).alert = false ∧
    (after (exec (.inputOutOfRange 60000) device)).alert = false ∧ (after (exec (.inputOutOfRange 60001) device)).alert = true ∧
    (after (exec (.inputOutOfRange 36000) device)).power.inputMv = 36000 ∧
    (after (exec (.inputOutOfRange 62000) device)).power.inputMv = 62000 := by decide +kernel

theorem test_reset_n :
    (after (exec (.resetNFall 1) device)).boot.phase = 0 ∧
    (after (exec (.resetNFall 10) (powered (fun w => { w with tripped := true }) device))).power.tripped = false ∧
    (after (exec (.resetNFall 9) (powered (fun w => { w with tripped := true }) device))).power.tripped = true ∧
    (after (exec (.resetNFall 10) (powered (fun w => { w with
      tripped := true
      dieT := [(3, 1521)] }) device))).power.tripped = true ∧
    heldInReset.power.resetHigh = false ∧ heldInReset.power.housekeeping = true ∧ heldInReset.power.pwrGood = true ∧
    heldInReset.power.tripped = false ∧ heldInReset.power.overVolt = false ∧ heldInReset.power.inputMv = 50000 ∧
    (let s := after (exec (.resetNFall 40) (powered (fun w => { w with
       tripped := true
       dieT := [(3, 1521)] }) device))
     let u := after (exec (.overTemperatureEnd true 3 1520) s)
     s.power.resetHigh = false ∧ s.power.tripped = true ∧ s.power.lowLeft = 40 ∧ u.power.cool = true ∧ u.free = s.free + 1) ∧
    (after (exec .resetNRise (inPhase 0 heldInReset))).boot.phase = 1 ∧
    (after (exec .resetNRise { inPhase 0 heldInReset with counters := [(5, 1)] })).counters = [] ∧
    (after (exec .resetNRise { inPhase 0 heldInReset with clocks := [(7, ⟨0, true⟩)] })).boot.noRef7 = true := by decide +kernel

/-- The strap is read as the housekeeping converter starts (R420). -/
theorem test_i3c_strap :
    (after (exec (.inputRise 38001) { dark with contacts := { dark.contacts with strap := 2 } })).contacts.i3cStatic = 0x5A := by
  decide +kernel

/-! ### Start-up -/

/-- Phase 1 with both reference clocks missing. -/
def noClocks : State := { State.reset with boot := { State.reset.boot with
  noRef0 := true
  noRef7 := true } }

/-- RESET leaves the block in phase 1 with nothing known of either strip. -/
theorem test_strip :
    State.reset.boot.phase = 1 ∧ State.reset.boot.d0 = none ∧ State.reset.boot.noRef0 = false ∧ State.reset.boot.noRef7 = false ∧
    (after (exec (.stripSelfTest (some true) true) noClocks)).boot.phase = 1 ∧
    (after (exec (.stripSelfTest (some true) true) noClocks)).boot.strip = none ∧
    device.boot.stripTold = false ∧ device.cur.ready = true ∧ device.arc.linkUp = true ∧
    (after (exec (.stripSelfTest (some true) true) State.reset)).boot.strip = some false ∧
    (after (exec (.stripSelfTest (some false) true) State.reset)).boot.strip = some true ∧
    (after (exec (.stripSelfTest (some false) false) State.reset)).boot.phase = 1 ∧
    (after (exec (.d0VerdictTimeout true) State.reset)).boot.strip = some true ∧
    device.boot.strip = some false ∧ device.boot.stripFailed = false ∧
    (after (exec .stripFailure device)).tx = [.stripLost] := by decide +kernel

/-- What the statement on phase 2 calls `found`. -/
def foundImage (s : State) : Option ((Nat × Nat) × Image) :=
  let r := ({ s with boot := { s.boot with second := s.boot.second || s.boot.flash1.present } } : State).readInventory
  (firstValid (fun (e : Nat × Nat) => r.curatorSlot e.2 e.1)
    (r.candidates (if r.boot.dir.isSome then r.boot.dirSlot else 0))).2

/-- A first flash that holds the signed image in slot A. -/
def programmed (s : State) : State :=
  { s with boot := { s.boot with flash0 := (Flash.blank true).write (offCurator 0) imageRows } }

/-- Phase 2, and what its first reading of the first flash leaves. -/
def phase2 : State := inPhase 2 (programmed State.reset)
def read2 : State := ({ phase2 with boot := { phase2.boot with second := phase2.boot.second || phase2.boot.flash1.present } } : State).readInventory

set_option maxRecDepth 100000 in
theorem read2_flash : read2.flash 0 = (programmed State.reset).boot.flash0 := by decide +kernel
set_option maxRecDepth 100000 in
theorem programmed_bytes : (programmed State.reset).boot.flash0.bytes (offCurator 0)
    (max (min (fld (((programmed State.reset).boot.flash0).row (offCurator 0)).toNat 128 32) (slotBytes 0)) 512) =
      bytesOfNat 1536 (natOfRows imageRows) := by decide +kernel
set_option maxRecDepth 100000 in
theorem read2_fuses : read2.fuses = State.reset.fuses := by decide +kernel
set_option maxRecDepth 100000 in
theorem read2_candidates : read2.candidates (if read2.boot.dir.isSome then read2.boot.dirSlot else 0) = [(0, 0), (1, 0)] := by
  decide +kernel

theorem found_of {s r : State} {l : List (Nat × Nat)} {i : Image}
    (hr : ({ s with boot := { s.boot with second := s.boot.second || s.boot.flash1.present } } : State).readInventory = r)
    (hc : r.candidates (if r.boot.dir.isSome then r.boot.dirSlot else 0) = (0, 0) :: l)
    (hi : r.curatorSlot 0 0 = some i) : foundImage s = some ((0, 0), i) := by
  subst hr
  unfold foundImage
  simp only [hc, firstValid, hi]

set_option maxRecDepth 100000 in
/-- Without a directory the Inventory is to be rebuilt, and slot A is read first. -/
theorem test_holdings_read :
    phase2.boot.phase = 2 ∧ phase2.boot.stripFailed = false ∧ (∃ e i, foundImage phase2 = some (e, i)) ∧
    foundImage (inPhase 2 State.reset) = none := by
  refine ⟨rfl, rfl, ?_, by decide +kernel⟩
  obtain ⟨i, hi⟩ := curatorSlot_of (s := read2) (slot := 0) read2_fuses (by rw [read2_flash]; exact programmed_bytes)
  exact ⟨(0, 0), i, found_of (r := read2) (by delta read2; rfl) read2_candidates hi⟩

/-- Phase 3 with every test passed, and phase 4. -/
def bringing : State := powered (fun w => { w with rails := false }) (inPhase 3 device)

theorem test_bring_up :
    bringing.boot.phase = 3 ∧ bringing.boot.image = some image ∧ bringing.boot.rebuild = false ∧ bringing.cur.active = some 30 ∧
    bringing.cur.standby = some 31 ∧ (after (exec (.dieBringUp ⟨[], []⟩) bringing)).boot.phase = 4 ∧
    (after (exec (.dieBringUp ⟨[], []⟩) bringing)).power.rails = true := by decide +kernel

theorem test_curator_start : (inPhase 4 device).boot.phase = 4 ∧ (inPhase 4 device).boot.image = some image := by decide +kernel

/-! ### Power -/

/-- Every die at `mv` and at ration `r`. -/
def asking (mv r : Nat) : State := powered (fun w => { w with
  vcore := (List.range 32).map (fun d => (d, mv))
  ration := (List.range 32).map (fun d => (d, r)) }) device

theorem test_power_interval :
    device.boot.phase = 5 ∧ device.cur.ready = true ∧ device.power.effCap = 12000 ∧ device.counter 0x1F01 0 = 0 ∧
    device.power.vcoreAsk 0 = 720 ∧ (after (exec (.powerInterval 12001 []) device)).power.vcoreAsk 31 = 715 ∧
    (∀ d, d < 32 → (asking 650 16).power.vcoreAsk d ≤ 650) ∧
    (after (exec (.powerInterval 12001 []) (asking 650 16))).power.rationAsk 31 = 15 ∧
    (after (exec (.powerInterval 12001 []) (asking 650 1))).power.rationAsk 31 = 1 ∧
    (asking 650 15).power.rationAsk 0 = 15 ∧ 100 * 11400 ≤ 95 * (asking 650 15).power.effCap ∧
    (after (exec (.powerInterval 11400 []) (asking 650 15))).power.rationAsk 31 = 16 ∧
    95 * device.power.effCap < 100 * 11401 ∧ 12000 ≤ device.power.effCap := by decide +kernel

theorem test_limiter :
    device.power.peak = false ∧ device.power.capHold = false ∧ device.power.rails = true ∧ device.counter 0x1F03 0 = 0 ∧
    (after (exec (.peakLimit 13201) device)).power.rationOf 9 = 8 ∧ (after (exec (.peakLimit 13200) device)).power.rationOf 9 = 16 ∧
    (after (exec (.capHold 12001) device)).power.rationOf 9 = 8 ∧ (after (exec (.capHold 12000) device)).power.rationOf 9 = 16 ∧
    (after (exec (.limiterRelease 11999) (after (exec (.peakLimit 13201) device)))).power.peak = false ∧
    (after (exec (.limiterRelease 12000) (after (exec (.peakLimit 13201) device)))).power.peak = true := by decide +kernel

/-! ### Heat and coolant -/

theorem test_heat :
    Sparse.wf Tile.reset device.tiles = true ∧ device.power.rail 3 = 720 ∧ device.counter 0x2001 3 = 0 ∧
    device.counter 0x2002 3 = 0 ∧ Sparse.get false device.power.dieHot 3 = false ∧
    (after (exec (.dieThrottle 3 1601) device)).power.rail 3 = 715 ∧ (after (exec (.dieThrottle 3 1600) device)).power.rail 3 = 720 ∧
    (after (exec (.dieOverTemp 3 1681) device)).alert = true ∧ (after (exec (.dieOverTemp 3 1680) device)).alert = false ∧
    Sparse.get false (after (exec (.stackHot 15 1361) device)).power.refresh2 15 = true ∧
    (after (exec (.stackHot 15 1520) device)).power.rationOf 31 = 16 ∧ (after (exec (.stackHot 15 1521) device)).power.rationOf 31 = 8 ∧
    (after (exec (.overTemperatureEnd true 3 1600) (after (exec (.dieOverTemp 3 1681) device)))).alert = false ∧
    (after (exec (.overTemperatureEnd false 15 1440) (after (exec (.stackHot 15 1521) device)))).alert = false := by
  decide +kernel

theorem test_trip_and_flow :
    (after (exec (.thermalTrip true 31 1760) device)).boot.phase = 0 ∧ (after (exec (.thermalTrip true 31 1759) device)).boot.phase = 5 ∧
    (after (exec (.thermalTrip false 15 1680) device)).thermTripLow = true ∧
    (after (exec (.thermalTrip false 15 1679) device)).thermTripLow = false ∧
    (after (exec (.lowFlow 2999) device)).alert = true ∧ (after (exec (.lowFlow 2999) device)).power.effCap = 2249 ∧
    (after (exec (.lowFlow 3000) device)).alert = false ∧ (after (exec (.flowRestored 3000) (after (exec (.lowFlow 2999) device)))).alert = false := by
  decide +kernel

/-! ### What every step keeps -/

/-- A state in canonical form with a step that answers next. -/
theorem test_step_from_device :
    device.wf ∧ (match step device with
      | .next _ => true
      | _ => false) = true := by
  exact ⟨⟨by decide +kernel, by decide +kernel, fun p => by rfl⟩, by decide +kernel⟩

end Sys2Proof.Tests
end

