-- ==== Sys2Proof/Tests/Updates.lean ====
section
/-! SUPPORT. The update of Curator and of the settings block, and attestation: states that meet the hypotheses of the
statements. -/

namespace Sys2Proof.Tests
open Sys2Proof.Machine
set_option Elab.async false

/-- The device with the signed image or block staged, `len` bytes of it, and verified when `v` says so. -/
def stagedImage (v : Option Nat) : State := { device with boot := { device.boot with
  flash0 := (Flash.blank true).write (offStage 0) imageRows
  staged0 := 1536
  verified0 := v } }
def stagedBlock (v : Option Nat) : State := { device with boot := { device.boot with
  flash0 := (Flash.blank true).write (offStage 1) blockRows
  staged1 := 1024
  verified1 := v } }

/-- Neither flash of a state fails to program, and the first is the one that is read. -/
def flashWorks (s : State) : Bool := s.boot.flash0.present && s.firstFlash == 0 && (s.flash 0).bad.isEmpty

/-! ### upd.stage, upd.verify and upd.status -/

def cStage : Cmd := command 0x0B00 (args [(2, 1), (32, 510)]) [1, 2, 3, 4]
theorem test_upd_stage :
    Starts (asks device cStage) 4 0x0B00 cStage ∧ device.boot.stripFailed = false ∧ flashWorks (asks device cStage) = true ∧
    cStage.arg 1 + cStage.payload.length ≤ slotBytes (cStage.arg 0) ∧ cStage.arg 0 ≤ 1 ∧
    (after (exec (.updStage 4 false false) (asks device cStage))).boot.staged1 = 514 ∧
    ((after (exec (.updStage 4 false false) (asks device cStage))).boot.flash0.row (offStage 1)).toNat = 0x0201 * 2 ^ 4080 ∧
    ((after (exec (.updStage 4 false false) (asks device cStage))).boot.flash0.row (offStage 1 + 1)).toNat = 0x0403 :=
  ⟨starts_of (by decide +kernel), by decide +kernel⟩

/-- The 64 KiB block that holds the staging region's first rows does not program. -/
theorem test_upd_stage_fails :
    let s := asks { device with boot := { device.boot with flash0 := { device.boot.flash0 with bad := [offStage 1 / 128] } } } cStage
    Starts s 4 0x0B00 cStage ∧ (s.flash s.firstFlash).fails (offStage 1 + 510 / 512) (cdiv 514 512 - 510 / 512) = true ∧
    answer (.updStage 4 false false) s = some (stNoResource, 0, 0) := ⟨starts_of (by decide +kernel), by decide +kernel⟩

def cVerify (len : Nat) : Cmd := command 0x0B01 (args [(2, 1), (32, len)]) []

set_option maxRecDepth 100000 in
theorem stagedBlock_bytes :
    (stagedBlock none).boot.flash0.bytes (offStage 1) 1024 = bytesOfNat 1024 (natOfRows blockRows) := by decide +kernel

theorem test_upd_verify :
    Starts (asks (stagedBlock none) (cVerify 1024)) 4 0x0B01 (cVerify 1024) ∧ (cVerify 1024).arg 0 = 1 ∧
    (cVerify 1024).arg 1 = 1024 ∧ (asks (stagedBlock none) (cVerify 1024)).boot.staged 1 = 1024 ∧
    (asks (stagedBlock none) (cVerify 1024)).stageFault 1 1024 = none ∧ (stagedBlock none).boot.phase = 5 ∧
    (stagedBlock none).boot.stripFailed = false := by
  refine ⟨starts_of (by decide +kernel), by decide +kernel, by decide +kernel, by decide +kernel, ?_, rfl, rfl⟩
  obtain ⟨b, hb⟩ := block_passes
  have hs : (asks (stagedBlock none) (cVerify 1024)).stagedBytes 1 1024 = bytesOfNat 1024 (natOfRows blockRows) :=
    stagedBlock_bytes
  unfold State.stageFault
  rw [if_neg (by decide), hs, checkBlock_same (s := asks (stagedBlock none) (cVerify 1024)) (u := State.reset) _ _ rfl rfl block_count, hb]

/-- Nothing but zeros is staged: check 1 fails. -/
def stagedZeros : State := { device with boot := { device.boot with staged1 := 1024 } }
set_option maxRecDepth 100000 in
theorem test_upd_verify_fails :
    Starts (asks stagedZeros (cVerify 1024)) 4 0x0B01 (cVerify 1024) ∧
    (cVerify 1024).arg 1 ≤ (asks stagedZeros (cVerify 1024)).boot.staged ((cVerify 1024).arg 0) ∧
    (asks stagedZeros (cVerify 1024)).stageFault ((cVerify 1024).arg 0) ((cVerify 1024).arg 1) = some (stBadCrc, 1) ∧
    answer (.updVerify 4) (asks stagedZeros (cVerify 1024)) = some (stBadCrc, 1, 0) ∧
    answer (.updVerify 4) (asks stagedZeros (cVerify 1025)) = some (stLength, 3, 0) :=
  ⟨starts_of (by decide +kernel), by decide +kernel⟩

def cUpdStatus : Cmd := command 0x0B03 (args [(2, 1)]) []
theorem test_upd_status :
    Starts (asks stagedZeros cUpdStatus) 4 0x0B03 cUpdStatus ∧
    answer (.updStatus 4) (asks stagedZeros cUpdStatus) = some (stOk, 0, 1024) :=
  ⟨starts_of (by decide +kernel), by decide +kernel⟩

/-! ### upd.activate -/

def cActivate (im : Nat) : Cmd := command 0x0B02 (args [(2, im)]) []

theorem test_upd_activate_block :
    let s := asks (stagedBlock (some 1024)) (cActivate 1)
    Starts s 4 0x0B02 (cActivate 1) ∧ (cActivate 1).wait = .none ∧ (cActivate 1).arg 0 = 1 ∧
    s.boot.verified 1 = some 1024 ∧ s.anyLaunch = false ∧ flashWorks s = true ∧
    ∃ b, s.checkBlock (s.stagedBytes 1 1024) none = .ok b := by
  refine ⟨starts_of (by decide +kernel), rfl, by decide +kernel, by decide +kernel, by decide +kernel, by decide +kernel, ?_⟩
  obtain ⟨b, hb⟩ := block_passes
  have hs : (asks (stagedBlock (some 1024)) (cActivate 1)).stagedBytes 1 1024 = bytesOfNat 1024 (natOfRows blockRows) :=
    stagedBlock_bytes
  refine ⟨b, ?_⟩
  rw [hs, checkBlock_same (s := asks (stagedBlock (some 1024)) (cActivate 1)) (u := State.reset) _ _ rfl rfl block_count]
  exact checkBlock_none hb

/-- A win.credit that has started and waits for its grants. -/
def waitingCmd : Cmd := { command 0x0306 0 [] with n := 3, st := .started, wait := .drain 0 }
def handing : State := asks { stagedImage (some 1536) with cur := { device.cur with cmds := [waitingCmd] } } (cActivate 0)

set_option maxRecDepth 100000 in
theorem handing_bytes : handing.stagedBytes 0 1536 = bytesOfNat 1536 (natOfRows imageRows) := by decide +kernel

theorem test_upd_activate_curator :
    Starts handing 4 0x0B02 (cActivate 0) ∧ (cActivate 0).wait = .none ∧ (cActivate 0).arg 0 = 0 ∧
    handing.boot.verified 0 = some 1536 ∧ handing.cur.standby = some 31 ∧ flashWorks handing = true ∧
    handing.stageFault 0 1536 = none ∧
    handing.cur.cmds.head? = some waitingCmd ∧ waitingCmd.n ≠ 4 ∧ waitingCmd.cutShort = true := by
  refine ⟨starts_of (by decide +kernel), rfl, by decide +kernel, by decide +kernel, by decide +kernel, by decide +kernel, ?_,
    by decide +kernel, by decide +kernel, by decide +kernel⟩
  obtain ⟨i, hi⟩ := image_passes
  unfold State.stageFault
  rw [if_pos rfl, handing_bytes, checkCurator_fuses (s := handing) (u := State.reset) _ _ rfl, hi]

/-- The handover waits for nothing more, and slot B holds the image. -/
def cHandover : Cmd := { cActivate 0 with st := .started, wait := .handover }
def handedOver : State := asks { device with
  cur := { device.cur with handover := true }
  boot := { device.boot with flash0 := (Flash.blank true).write (offCurator 1) imageRows } } cHandover

set_option maxRecDepth 100000 in
theorem handedOver_bytes : (handedOver.flash 0).bytes (offCurator 1)
    (max (min (fld ((handedOver.flash 0).row (offCurator 1)).toNat 128 32) (slotBytes 0)) 512) =
      bytesOfNat 1536 (natOfRows imageRows) := by decide +kernel

theorem test_upd_handover :
    handedOver.cmd 4 = some cHandover ∧ cHandover.wait = .handover ∧ handedOver.draining 4 = false ∧
    handedOver.cur.standby = some 31 ∧ handedOver.boot.dirSlot = 0 ∧ flashWorks handedOver = true ∧ (∃ i, handedOver.curatorSlot 0 1 = some i) ∧
    (handedOver.win 31 15).ledger = [] ∧ (∀ p, handedOver.cur.active = some p → (handedOver.win p 15).ledger = []) :=
  ⟨by decide +kernel, rfl, by decide +kernel, rfl, rfl, by decide +kernel, curatorSlot_of rfl handedOver_bytes, by decide +kernel,
    fun p _ => rfl⟩

/-- The directory's next copy lies in a block that does not program. -/
theorem test_upd_handover_unnamed :
    let s : State := { handedOver with boot := { handedOver.boot with flash0 := { handedOver.boot.flash0 with bad := [2] } } }
    s.boot.dir = some (0, 7) ∧ (s.flash s.firstFlash).fails (offDir 1) 1 = true ∧
    (s.flash 0).fails (offCurator 1) 3 = false := by decide +kernel

/-! ### Attestation -/

def cReport : Cmd := command 0x0C00 (args [(256, 77), (64, 512 * 100)]) []
theorem test_attest_report :
    Starts (asks device cReport) 4 0x0C00 cReport ∧ (asks device cReport).resultStatus cReport (cReport.arg 1) 1 = stOk ∧
    cReport.arg 0 = 77 := ⟨starts_of (by decide +kernel), by decide +kernel, by decide +kernel⟩

def cCerts : Cmd := command 0x0C01 (args [(64, 512 * 100)]) []
theorem test_attest_certs :
    Starts (asks device cCerts) 4 0x0C01 cCerts ∧
    (asks device cCerts).resultStatus cCerts (cCerts.arg 0) (certRows (asks device cCerts).fuses.certs).length = stOk ∧
    answer (.attestCerts 4) (asks device cCerts) = some (stOk, 0, 0) :=
  ⟨starts_of (by decide +kernel), by decide +kernel⟩

end Sys2Proof.Tests
end

section
/-! The sequencer's part of an operation that enters a unit's queue: what a completion entry, a list that runs off and the step
past a slot change, and what they leave alone (R166, R167, R189). -/

namespace Sys2Proof.Machine

/-! ### What the sequencer's books are -/

/-- A tile without what the sequencer keeps: its lists, the list it stays with, its launch and the rows of the launch's
completion record. -/
def Tile.offBooks (t : Tile) : Tile :=
  { t with rows := [], fresh := [], banks := [], launch := none, lists := [], current := 0 }

/-- From `s` to `u` only the sequencer's books of tile `p` changed, and of its rows only those of the completion record of
launch `la`. -/
structure OnlyBooks (s u : State) (p : Nat) (la : Launch) : Prop where
  only  : OnlyTile s u p
  rows  : RowsKept s u p la
  frame : (u.tile p).offBooks = (s.tile p).offBooks

/-- A tile's lists, launch, flights and signals: what the issue of an operation reads and moves. -/
def Tile.sequencing (t : Tile) : Tile :=
  { Tile.reset with launch := t.launch, lists := t.lists, flights := t.flights, signals := t.signals }

theorem Tile.sequencing_fields {t u : Tile} (h : t.sequencing = u.sequencing) :
    t.launch = u.launch ∧ t.lists = u.lists ∧ t.flights = u.flights ∧ t.signals = u.signals :=
  ⟨congrArg (fun x => x.launch) h, congrArg (fun x => x.lists) h, congrArg (fun x => x.flights) h,
    congrArg (fun x => x.signals) h⟩

theorem OnlyTile.trans {s u v : State} {p : Nat} (h : OnlyTile s u p) (k : OnlyTile u v p) : OnlyTile s v p := by
  obtain ⟨hout, htile⟩ := h
  obtain ⟨kout, ktile⟩ := k
  refine ⟨?_, fun q hq => (ktile q hq).trans (htile q hq)⟩
  calc v.uncounted = { u.uncounted with tiles := v.tiles } := kout
    _ = ({ s with tiles := v.tiles } : State).uncounted := by rw [hout]; rfl

theorem onlyTile_setTile (s : State) (p : Nat) (t : Tile) : OnlyTile s (s.setTile p t) p :=
  ⟨rfl, fun _ hq => State.tile_setTile_ne s t hq.symm⟩

theorem onlyTile_updTile (s : State) (p : Nat) (f : Tile → Tile) : OnlyTile s (s.updTile p f) p :=
  onlyTile_setTile s p (f (s.tile p))

theorem OnlyBooks.refl (s : State) (p : Nat) (la : Launch) : OnlyBooks s s p la :=
  ⟨⟨rfl, fun _ _ => rfl⟩, fun _ _ => rfl, rfl⟩

theorem OnlyBooks.trans {s u v : State} {p : Nat} {la : Launch} (h : OnlyBooks s u p la) (k : OnlyBooks u v p la) :
    OnlyBooks s v p la :=
  ⟨h.only.trans k.only, fun r hr => (k.rows r hr).trans (h.rows r hr), k.frame.trans h.frame⟩

theorem OnlyBooks.unitState {s u : State} {p : Nat} {la : Launch} (h : OnlyBooks s u p la) :
    (u.tile p).unitState = (s.tile p).unitState := congrArg (fun t => t.unitState) h.frame

theorem OnlyBooks.flights {s u : State} {p : Nat} {la : Launch} (h : OnlyBooks s u p la) :
    (u.tile p).flights = (s.tile p).flights := congrArg (fun t => t.flights) h.frame

theorem OnlyBooks.signals {s u : State} {p : Nat} {la : Launch} (h : OnlyBooks s u p la) :
    (u.tile p).signals = (s.tile p).signals := congrArg (fun t => t.signals) h.frame

theorem OnlyBooks.vreg {s u : State} {p : Nat} {la : Launch} (h : OnlyBooks s u p la) (v : Nat) :
    (u.tile p).vreg v = (s.tile p).vreg v := congrArg (fun t => t.vreg v) h.frame

theorem onlyBooks_setTile {s : State} {p : Nat} {t : Tile} (la : Launch) (hrows : t.rows = (s.tile p).rows)
    (hframe : t.offBooks = (s.tile p).offBooks) : OnlyBooks s (s.setTile p t) p la := by
  refine ⟨onlyTile_setTile s p t, fun r _ => ?_, ?_⟩ <;> rw [State.tile_setTile_same]
  · rw [hrows]
  · exact hframe

theorem Tile.cleanAt_congr {t u : Tile} (h : u.banks = t.banks) (r : Nat) : u.cleanAt r = t.cleanAt r := by
  simp only [Tile.cleanAt, Tile.faultsAt, Tile.bank, h]

/-- Tile `p` runs launch `la`, and no row of the launch's completion record has a fault. -/
structure Recording (s : State) (p : Nat) (la : Launch) : Prop where
  launch : (s.tile p).launch = some la
  clean  : RecordClean s p

theorem Issues.recording {s : State} {t l p : Nat} {c : Bool} {la : Launch} {o : Op} (h : Issues s t l c p la o) :
    Recording s p la := ⟨h.launch, h.recordRead⟩

/-- Whether a launch's record is clean depends on the launch and the banks alone. -/
theorem Recording.setTile {s v : State} {p : Nat} {la : Launch} {t : Tile} (h : Recording s p la)
    (hl : t.launch = (s.tile p).launch) (hb : t.banks = (s.tile p).banks) : Recording (v.setTile p t) p la := by
  have hlaunch : ((v.setTile p t).tile p).launch = (s.tile p).launch := by rw [State.tile_setTile_same, hl]
  refine ⟨hlaunch.trans h.launch, fun la' hla r hlo hhi => ?_⟩
  rw [State.tile_setTile_same, Tile.cleanAt_congr hb]
  exact h.clean la' (hlaunch ▸ hla) r hlo hhi

/-! ### A completion entry -/

/-- A completion entry in a clean record counts in the launch, and writes one row of the record or, past its end, none. -/
theorem State.entry_tile {s : State} {p : Nat} {la : Launch} (h : Recording s p la) (e : Entry) :
    ∃ la' : Launch, (s.entry p e).tile p = { s.tile p with launch := some la' } ∨
      ∃ r x, la.compRow ≤ r ∧ r < la.compRow + la.compRows ∧
        (s.entry p e).tile p = ({ s.tile p with launch := some la' } : Tile).store r x := by
  unfold State.entry
  simp only [h.launch]
  split
  · next hfits =>
    rw [readRow_clean _ _ _ (by
      rw [State.tile_updTile_same]
      exact h.clean la h.launch _ (by omega) (by omega))]
    rw [setRow, State.tile_updTile_same, State.tile_updTile_same]
    exact ⟨_, .inr ⟨la.compRow + 1 + la.entries / 16, _, by omega, by omega, rfl⟩⟩
  · rw [State.count1, State.count_tile, State.tile_updTile_same]
    exact ⟨_, .inl rfl⟩

/-- A completion entry touches no list. -/
theorem State.entry_list {s : State} {p : Nat} {la : Launch} (h : Recording s p la) (e : Entry) (k : Nat) :
    ((s.entry p e).tile p).list k = (s.tile p).list k := by
  obtain ⟨la', ht | ⟨r, x, -, -, ht⟩⟩ := State.entry_tile h e <;> rw [ht] <;> rfl

theorem State.entry_onlyBooks {s : State} {p : Nat} {la : Launch} (h : Recording s p la) (e : Entry) :
    OnlyBooks s (s.entry p e) p la := by
  refine ⟨⟨State.entry_outside s p e h.clean, fun q hq => State.entry_other s p q e hq.symm⟩, fun q hq => ?_, ?_⟩ <;>
    obtain ⟨la', ht | ⟨r, x, hlo, hhi, ht⟩⟩ := State.entry_tile h e <;> rw [ht]
  · rw [Tile.get_store, if_neg (by rintro rfl; exact hq ⟨hlo, hhi⟩)]
  · rfl
  · rfl

/-! ### The step past a slot -/

/-- The list as `State.runOff` leaves it: ended, if its issue ran past a program of `last` bundles. -/
def WorkList.ranOff (w : WorkList) (last : Nat) : WorkList := { w with ended := w.ended || w.off last }

theorem State.runOff_list {s : State} {p : Nat} {la : Launch} (h : Recording s p la) (l k : Nat) :
    ((s.runOff p l la).tile p).list k =
      if l = k then ((s.tile p).list l).ranOff (progBundles la.compat la.progRows) else (s.tile p).list k := by
  unfold State.runOff State.updTile
  simp only [WorkList.ranOff]
  split
  · next hoff =>
    rw [State.entry_list, State.tile_setTile_same, Tile.list_setList, hoff, Bool.or_true]
    exact h.setTile rfl rfl
  · next hoff =>
    rw [Bool.not_eq_true] at hoff
    rw [hoff, Bool.or_false]
    split
    · next hk => rw [hk]
    · rfl

theorem State.runOff_onlyBooks {s : State} {p : Nat} {la : Launch} (h : Recording s p la) (l : Nat) :
    OnlyBooks s (s.runOff p l la) p la := by
  unfold State.runOff State.updTile
  simp only []
  split
  · refine (onlyBooks_setTile la ?_ ?_).trans (State.entry_onlyBooks ?_ _)
    · rfl
    · rfl
    · exact h.setTile rfl rfl
  · exact OnlyBooks.refl s p la

/-- The tile with the list of `o` moved past its slot, before the check whether it ran off its program. -/
def Tile.stepped (t : Tile) (la : Launch) (o : Op) : Tile :=
  { t.setList o.list ((t.list o.list).advance (o.bundleOf la) o.idx o.raw) with current := o.list }

theorem Tile.stepped_list (t : Tile) (la : Launch) (o : Op) (k : Nat) : (t.stepped la o).list k =
    if o.list = k then (t.list o.list).advance (o.bundleOf la) o.idx o.raw else t.list k := Tile.list_setList _ _ _ _

/-- The list of `o` after the step past its slot. -/
def WorkList.past (w : WorkList) (la : Launch) (o : Op) : WorkList :=
  (w.advance (o.bundleOf la) o.idx o.raw).ranOff (progBundles la.compat la.progRows)

theorem State.pastSlot_eq {s : State} {p : Nat} {la : Launch} (hl : (s.tile p).launch = some la) (o : Op) :
    s.pastSlot p o = (s.setTile p ((s.tile p).stepped la o)).runOff p o.list la := by
  simp only [State.pastSlot, hl, Op.bundleOf, Tile.stepped]

theorem State.pastSlot_list {s : State} {p : Nat} {la : Launch} (h : Recording s p la) (o : Op) (k : Nat) :
    ((s.pastSlot p o).tile p).list k =
      if o.list = k then ((s.tile p).list o.list).past la o else (s.tile p).list k := by
  rw [State.pastSlot_eq h.launch, State.runOff_list, State.tile_setTile_same, Tile.stepped_list, Tile.stepped_list,
    if_pos rfl]
  · split <;> rfl
  · exact h.setTile rfl rfl

theorem State.pastSlot_onlyBooks {s : State} {p : Nat} {la : Launch} (h : Recording s p la) (o : Op) :
    OnlyBooks s (s.pastSlot p o) p la := by
  rw [State.pastSlot_eq h.launch]
  refine (onlyBooks_setTile la ?_ ?_).trans (State.runOff_onlyBooks ?_ o.list)
  · rfl
  · rfl
  · exact h.setTile rfl rfl

/-- The step past a slot writes no scalar register. -/
theorem WorkList.past_x (w : WorkList) (la : Launch) (o : Op) (i : Nat) : (w.past la o).x i = w.x i := by
  unfold WorkList.past WorkList.advance
  split <;> rfl

/-! ### The operation that issues -/

/-- An operation that list `l` issues next carries the list's number, bundle index and slot. -/
theorem Tile.next_some {t : Tile} {l : Nat} {o : Op} (h : t.next l = some o) :
    o.list = l ∧ o.bundle = (t.list l).pc ∧ o.slot = (t.list l).slot := by
  unfold Tile.next at h
  split at h
  · cases h
  · split at h
    · cases h
    · simp only [] at h
      split at h
      · cases h
      · cases h
        exact ⟨rfl, rfl, rfl⟩

/-- Past its slot the list of `o` stands in the next slot, at the branch target or at the next bundle, and has ended where
a ctl.end or the end of its program says so (R166, R189). -/
theorem movedOn_of_past {s u : State} {p l : Nat} {la : Launch} {o : Op} (hslot : o.slot = ((s.tile p).list l).slot)
    (hu : (u.tile p).list l = ((s.tile p).list l).past la o) : MovedOn s u p l la o none false := by
  simp only [MovedOn, hu, hslot, WorkList.past, WorkList.advance, WorkList.ranOff, WorkList.off]
  split
  · simp
  · cases ((s.tile p).list l).ending <;> simp [and_comm]

/-- The step past the slot of the operation that issues, from a state that holds its tile's launch and lists as they were. -/
theorem State.pastSlot_moves {s v : State} {t l p : Nat} {c : Bool} {la : Launch} {o : Op} (h : Reaches s t l c p la o)
    (hv : Recording v p la) (hlists : (v.tile p).lists = (s.tile p).lists) :
    MovedOn s (v.pastSlot p o) p l la o none false ∧ OtherLists s (v.pastSlot p o) p l ∧
      ∀ i, (v.pastSlot p o).x p l i = s.x p l i := by
  obtain ⟨rfl, -, hslot⟩ := Tile.next_some h.next
  have hsame (k : Nat) : (v.tile p).list k = (s.tile p).list k := by rw [Tile.list, Tile.list, hlists]
  have hlist (k : Nat) : ((v.pastSlot p o).tile p).list k =
      if o.list = k then ((s.tile p).list o.list).past la o else (s.tile p).list k := by
    rw [State.pastSlot_list hv, hsame, hsame]
  refine ⟨movedOn_of_past hslot ?_, fun k hk => ?_, fun i => ?_⟩
  · rw [hlist, if_pos rfl]
  · rw [hlist, if_neg hk.symm]
  · rw [State.x, hlist, if_pos rfl, WorkList.past_x, State.x]

/-- The tile with one more operation in flight. -/
def Tile.enter (t : Tile) (f : Flight) : Tile := { t with flights := t.flights ++ [f] }

theorem Outcome.later_eq {r : Outcome} (hst : r.status = stOk) (p : Nat) (o : Op) (units : List TileUnit)
    (regs tiles : List Nat) : r.later p o units regs tiles = (r.s.setTile p ((r.s.tile p).enter
      (o.flight r units (regs.filter (fun x => x != 0)) tiles false))).pastSlot p o := by
  rw [Outcome.later, if_neg (by simp [hst])]
  rfl

/-- What an operation that enters a unit's queue does around its effect, which leaves the tile's sequencing alone. -/
theorem Outcome.later_enters {s : State} {t l p : Nat} {c : Bool} {la : Launch} {o : Op} (h : Reaches s t l c p la o)
    {r : Outcome} (hst : r.status = stOk) (hq : (r.s.tile p).sequencing = (s.tile p).sequencing)
    (hc : RecordClean r.s p) (units : List TileUnit) (regs tiles : List Nat) :
    let u := r.later p o units regs tiles
    Entered s u p l la o units regs ∧ (∀ i, u.x p l i = s.x p l i) ∧ OnlyTile r.s u p ∧ RowsKept r.s u p la ∧
      (u.tile p).unitState = (r.s.tile p).unitState ∧ ∀ v, (u.tile p).vreg v = (r.s.tile p).vreg v := by
  obtain ⟨hlist, -, -⟩ := Tile.next_some h.next
  obtain ⟨hlaunch, hlists, hflights, hsignals⟩ := Tile.sequencing_fields hq
  rw [Outcome.later_eq hst]
  generalize hf : o.flight r units (regs.filter (fun x => x != 0)) tiles false = f
  have htile := State.tile_setTile_same r.s p ((r.s.tile p).enter f)
  have hrecording : Recording (r.s.setTile p ((r.s.tile p).enter f)) p la :=
    Recording.setTile ⟨hlaunch.trans h.launch, hc⟩ rfl rfl
  have hbooks := State.pastSlot_onlyBooks hrecording o
  obtain ⟨hmoved, hothers, hx⟩ := State.pastSlot_moves h hrecording (by rw [htile]; exact hlists)
  refine ⟨⟨⟨f, ?_, ?_⟩, hmoved, hothers, ?_⟩, hx, (onlyTile_setTile _ _ _).trans hbooks.only, fun q hr => ?_, ?_,
    fun v => ?_⟩
  · rw [hbooks.flights, htile, Tile.enter, hflights]
  · subst hf
    exact ⟨hlist, rfl, rfl, rfl, rfl, rfl, hst, rfl, rfl⟩
  · rw [hbooks.signals, htile]; exact hsignals
  · rw [hbooks.rows q hr, htile]; rfl
  · rw [hbooks.unitState, htile]; rfl
  · rw [hbooks.vreg, htile]; rfl

end Sys2Proof.Machine
end

section
/-! The vector registers: elements of a packed row, and the write of one register (R180, R181). -/

namespace Sys2Proof.Machine

theorem elem_packElems (w : Nat) (l : List Nat) (i : Nat) : elem w (packElems w l) i = l.getD i 0 % 2 ^ w := by
  induction l generalizing i with
  | nil => simp [packElems, elem, fld]
  | cons x xs ih =>
    cases i with
    | zero => simp [packElems, elem, fld, Nat.shiftLeft_eq]
    | succ i =>
      have hshift : (x % 2 ^ w + packElems w xs <<< w) >>> w = packElems w xs := by
        rw [Nat.shiftLeft_eq, Nat.shiftRight_eq_div_pow, Nat.add_mul_div_right _ _ (Nat.two_pow_pos w),
          Nat.div_eq_of_lt (Nat.mod_lt _ (Nat.two_pow_pos w)), Nat.zero_add]
      rw [List.getD_cons_succ, ← ih, elem, elem, fld, fld, packElems, Nat.mul_succ,
        Nat.add_comm (w * i) w, Nat.shiftRight_add, hshift]

/-- An element that lies in the 512 bytes of a row is kept when a number is cut to a row. -/
theorem elem_row {w i : Nat} (x : Nat) (h : w * i + w ≤ 4096) : elem w (row x).toNat i = elem w x i := by
  refine Nat.eq_of_testBit_eq fun j => ?_
  simp only [elem, fld, row, BitVec.toNat_ofNat, Nat.testBit_mod_two_pow, Nat.testBit_shiftRight]
  by_cases hj : j < w
  · simp [hj, show w * i + j < 4096 by omega]
  · simp [hj]

theorem typeBits_mul_typeElems (type : Nat) : typeBits type * typeElems type = 4096 := by
  have h : typeBytes type = 4 ∨ typeBytes type = 8 ∨ typeBytes type = 2 := by
    unfold typeBytes
    split
    · exact .inl rfl
    · exact .inr (.inl rfl)
    · exact .inr (.inr rfl)
  rcases h with h | h | h <;> simp [typeBits, typeElems, h]

/-- Every element of a TYPE lies in its register. -/
theorem typeBits_fits {type e : Nat} (h : e < typeElems type) : typeBits type * e + typeBits type ≤ 4096 := by
  rw [← Nat.mul_succ, ← typeBits_mul_typeElems type]
  exact Nat.mul_le_mul_left _ h

theorem getElem?_elems {type e : Nat} (x : Nat) (h : e < typeElems type) :
    (elems type x)[e]? = some (elem (typeBits type) x e) := by
  simp [elems, tabulate, h]

/-- Element `e` of a register's elements rewritten by value and number. -/
theorem getD_map_zipIdx_elems {type e : Nat} (x : Nat) (h : e < typeElems type) (f : Nat × Nat → Nat) :
    ((elems type x).zipIdx.map f).getD e 0 = f (elem (typeBits type) x e, e) := by
  simp only [List.getD_eq_getElem?_getD, List.getElem?_map, List.getElem?_zipIdx, getElem?_elems x h, Option.map_some,
    Option.getD_some, Nat.zero_add]

theorem State.tile_setVreg (s : State) (p v x : Nat) :
    (s.setVreg p v x).tile p = { s.tile p with vregs := Sparse.set 0 (s.tile p).vregs v (row x) } :=
  State.tile_updTile_same _ _ _

theorem State.vreg_setVreg (s : State) (p v w x : Nat) :
    ((s.setVreg p v x).tile p).vreg w = if v = w then (row x).toNat else (s.tile p).vreg w := by
  rw [State.tile_setVreg, Tile.vreg, Tile.vreg, Sparse.get_set]
  split <;> rfl

/-- A vector operation whose effect is to write `y` to VD: what it answers, and what stands. -/
theorem vecWrites_of_setVreg {s : State} {t l p : Nat} {c : Bool} {la : Launch} {o : Op} (h : Issues s t l c p la o)
    {y : Nat} {x : Nat → Nat}
    (hx : ∀ e, e < typeElems o.vtype → elem (typeBits o.vtype) y e = x e % 2 ^ typeBits o.vtype) :
    VecWrites s (.next ((okOut (s.setVreg p o.vd y)).later p o [.vec] [] [])) p l la o x := by
  have htile := State.tile_setVreg s p o.vd y
  have hrecording : Recording (s.setVreg p o.vd y) p la := h.recording.setTile rfl rfl
  obtain ⟨hentered, hregs, honly, hrows, hunits, hvreg⟩ := Outcome.later_enters h.toReaches
    (r := okOut (s.setVreg p o.vd y)) rfl (by rw [okOut, htile]; rfl) hrecording.clean [.vec] [] []
  refine ⟨_, rfl, fun e he => ?_, fun v hv => ?_, hentered, hregs, (onlyTile_updTile _ _ _).trans honly,
    fun r hr => ?_, ?_⟩
  · rw [hvreg, okOut, State.vreg_setVreg, if_pos rfl, elem_row _ (typeBits_fits he), hx e he]
  · rw [hvreg, okOut, State.vreg_setVreg, if_neg hv.symm]
  · rw [hrows r hr, okOut, htile]
  · refine (congrArg (fun t : Tile => { t with vregs := [] }) hunits).trans ?_
    rw [okOut, htile]; rfl

end Sys2Proof.Machine
end

section
/-! vec.cmask (R184). -/

namespace Sys2Proof.Machine

/-- Minus infinity of the two TYPEs that vec.cmask takes. -/
theorem negInf_of_cmask {type : Nat} (h : type = 0 ∨ type = 2) : negInf type = if type = 0 then 0xFF800000 else 0xFF80 := by
  rcases h with rfl | rfl <;> rfl

theorem exec_vecCmask_of_issues {s : State} {t l p : Nat} {la : Launch} {o : Op} (h : Issues s t l false p la o)
    (hcode : o.code = 0x50) : exec (.vecCmask t l) s = .next ((opVecCmask p o s).later p o [.vec] [] []) :=
  congrArg Host.Outcome.next (State.issue_of_issues h (by rw [hcode]; rfl) _)

/-- Settles O12: the masked elements, packed to a row, are those the query and the key of each element say. -/
theorem causalMask : Obligations.CausalMask := by
  unfold Obligations.CausalMask
  intro s t l p la o h hcode htype
  rw [exec_vecCmask_of_issues h hcode]
  obtain ⟨rfl, -, -⟩ := Tile.next_some h.next
  refine vecWrites_of_setVreg h fun e he => ?_
  rw [elem_packElems, getD_map_zipIdx_elems _ he, negInf_of_cmask htype, Op.el]

end Sys2Proof.Machine
end

section
/-! The random service (R251-R255, R259): its record in rows, the refill of a lane-slot buffer and the key change; and, for
every command that answers, the state its reply is sent in. -/

namespace Sys2Proof.Machine

/-! ### Records packed from fields -/

theorem fld_eq_div (x lo w : Nat) : fld x lo w = x / 2 ^ lo % 2 ^ w := by rw [fld, Nat.shiftRight_eq_div_pow]

theorem put_eq_mul (lo w v : Nat) : put lo w v = v % 2 ^ w * 2 ^ lo := Nat.shiftLeft_eq _ _

theorem put_lt (lo w v : Nat) : put lo w v < 2 ^ (lo + w) := by
  rw [put_eq_mul, Nat.add_comm, Nat.pow_add]
  exact Nat.mul_lt_mul_of_pos_right (Nat.mod_lt _ (Nat.two_pow_pos w)) (Nat.two_pow_pos lo)

@[simp] theorem fld_put (lo w v : Nat) : fld (put lo w v) lo w = v % 2 ^ w := by
  rw [fld_eq_div, put_eq_mul, Nat.mul_div_cancel _ (Nat.two_pow_pos lo), Nat.mod_mod]

/-- What is added above a field leaves the field alone. -/
theorem fld_add_above {y lo w : Nat} (x : Nat) (h : 2 ^ (lo + w) ∣ y) : fld (x + y) lo w = fld x lo w := by
  obtain ⟨c, rfl⟩ := h
  rw [fld_eq_div, fld_eq_div, Nat.pow_add, Nat.mul_assoc, Nat.add_mul_div_left _ _ (Nat.two_pow_pos lo),
    Nat.add_mul_mod_self_left]

/-- What is added below the bits that a number fills leaves its fields alone. -/
theorem fld_add_below {x y b lo : Nat} (w : Nat) (hx : x < 2 ^ b) (hy : 2 ^ b ∣ y) (hb : b ≤ lo) :
    fld (x + y) lo w = fld y lo w := by
  obtain ⟨c, rfl⟩ := hy
  obtain ⟨k, rfl⟩ := Nat.exists_eq_add_of_le hb
  rw [fld_eq_div, fld_eq_div, Nat.pow_add, ← Nat.div_div_eq_div_mul, ← Nat.div_div_eq_div_mul,
    Nat.add_mul_div_left _ _ (Nat.two_pow_pos b), Nat.div_eq_of_lt hx, Nat.zero_add,
    Nat.mul_div_cancel_left _ (Nat.two_pow_pos b)]

theorem pack_eq_sum (fs : List (Nat × Nat × Nat)) : pack fs = (fs.map (fun f => put f.1 f.2.1 f.2.2)).sum := by
  rw [List.sum_eq_foldl, List.foldl_map, pack]

theorem pack_cons (f : Nat × Nat × Nat) (fs : List (Nat × Nat × Nat)) : pack (f :: fs) = put f.1 f.2.1 f.2.2 + pack fs := by
  rw [pack_eq_sum, pack_eq_sum, List.map_cons, List.sum_cons]

theorem two_pow_dvd_pack {b : Nat} {fs : List (Nat × Nat × Nat)} (h : ∀ f ∈ fs, b ≤ f.1) : 2 ^ b ∣ pack fs := by
  induction fs with
  | nil => exact Nat.dvd_zero _
  | cons f fs ih =>
    obtain ⟨hf, hfs⟩ := List.forall_mem_cons.mp h
    rw [pack_cons, put_eq_mul]
    exact Nat.dvd_add (Nat.dvd_mul_left_of_dvd (Nat.pow_dvd_pow 2 hf) _) (ih hfs)

/-- A record whose fields lie one above the other holds in each field the value packed there. -/
theorem fld_pack {fs : List (Nat × Nat × Nat)} (h : fs.Pairwise (fun f g => f.1 + f.2.1 ≤ g.1)) {lo w v : Nat}
    (hmem : (lo, w, v) ∈ fs) : fld (pack fs) lo w = v % 2 ^ w := by
  induction fs with
  | nil => cases hmem
  | cons f fs ih =>
    obtain ⟨hf, hfs⟩ := List.pairwise_cons.mp h
    rw [pack_cons]
    rcases List.mem_cons.mp hmem with rfl | hmem
    · rw [fld_add_above _ (two_pow_dvd_pack hf), fld_put]
    · rw [fld_add_below w (put_lt _ _ _) (two_pow_dvd_pack hf) (hf _ hmem), ih hfs hmem]

/-! ### The reply of a command -/

/-- A command whose last act is its final reply is answered from the state before it. -/
theorem does_of_final {s e : State} {i : Instr} {n : Nat} {c : Cmd} {st d : Nat} {r : List Nat} {P : State → Prop}
    (hexec : exec i s = .next (e.final n st d r)) (hc : e.cmd n = some c) (hP : P e) : Does s i c st d r P :=
  ⟨e, _, hexec, State.answered_final hc st d r, hP⟩

/-! ### Results in rows (R298) -/

@[simp] theorem State.writeMem_cur (s : State) (pl : Place) (x : Row) : (s.writeMem pl x).cur = s.cur := by
  cases pl <;> rfl

@[simp] theorem State.writeResult_cur (s : State) (pl : Place) (rows : List Row) : (s.writeResult pl rows).cur = s.cur := by
  induction rows generalizing s pl with
  | nil => rfl
  | cons x xs ih => rw [State.writeResult, ih, State.writeMem_cur]

/-- A result is written past the journal: into rows, or into the result buffer of the I3C port. -/
@[simp] theorem State.putResult_cmd (s : State) (c : Cmd) (addr : Nat) (rows : List Row) (n : Nat) :
    (s.putResult c addr rows).cmd n = s.cmd n := by
  unfold State.putResult
  split
  · rfl
  · split
    · rw [State.cmd, State.writeResult_cur, State.cmd]
    · rfl

/-- Rows written at a place in HBM are held there. -/
theorem hbmHolds_writeResult (s : State) (k : Nat) (rows : List Row) :
    HbmHolds s (s.writeResult (.hbm k) rows) k rows := by
  induction rows generalizing s k with
  | nil => exact ⟨fun i x h => by simp at h, fun _ _ => rfl⟩
  | cons x xs ih =>
    obtain ⟨held, kept⟩ := ih (s.writeHbm k x) (k + 1)
    have written (j : Nat) : Sparse.get 0 (s.writeHbm k x).mem.hbm j = if k = j then x else Sparse.get 0 s.mem.hbm j :=
      Sparse.get_set 0 s.mem.hbm k j x
    refine ⟨fun i y hy => ?_, fun j hj => ?_⟩
    · cases i with
      | zero =>
        obtain rfl : x = y := by simpa using hy
        exact (kept k (by omega)).trans ((written k).trans (if_pos rfl))
      | succ i => exact (congrArg _ (by omega)).trans (held i y hy)
    · rw [List.length_cons] at hj
      exact (kept j (by omega)).trans ((written j).trans (if_neg (by omega)))

/-- A command that writes its result in rows and answers OK reports them. -/
theorem reports_of_answerRows {s : State} {i : Instr} {n op : Nat} {c : Cmd} {addr : Nat} {rows : List Row} {r : List Nat}
    (h : Starts s n op c) (hexec : exec i s = .next (s.answerRows c addr rows r)) : Reports s i c addr rows r := by
  intro hroom
  have hput : s.answerRows c addr rows r = (s.putResult c addr rows).final c.n stOk 0 r := by
    rw [State.answerRows, if_neg (not_not_intro hroom), State.finalOk]
  have hc : (s.putResult c addr rows).cmd c.n = some c := by
    rw [State.putResult_cmd, State.cmd_n h.held, h.held]
  refine does_of_final (hexec.trans (congrArg _ hput)) hc ⟨rfl, fun k haddr hport => ?_⟩
  have hrow : ¬ (c.port = .i3c ∧ addr = 0) := fun ⟨hi3c, hzero⟩ => hport.elim (· hi3c) (· hzero)
  rw [State.putResult, if_neg hrow, haddr]
  exact hbmHolds_writeResult s k rows

/-! ### The random-service state (R254) -/

/-- The fields of the random-service state (Table 11-2). -/
theorem Rng.fld_bits (r : Rng) :
    fld r.bits 0 64 = r.seed.toNat ∧ fld r.bits 64 64 = r.salt.toNat ∧ fld r.bits 128 8 = 1 ∧
    fld r.bits 144 16 = r.keyGen % 2 ^ 16 ∧ fld r.bits 160 32 = chacha8 r.key 0 % 2 ^ 32 := by
  have field {lo w : Nat} (v : Nat) : (lo, w, v) ∈ [(0, 64, r.seed.toNat), (64, 64, r.salt.toNat), (128, 8, algVersion),
      (144, 16, r.keyGen), (160, 32, keyCheck r.key)] → fld r.bits lo w = v % 2 ^ w := fld_pack (by simp)
  refine ⟨?_, ?_, field algVersion (by simp), field r.keyGen (by simp), ?_⟩
  · rw [field r.seed.toNat (by simp), Nat.mod_eq_of_lt r.seed.isLt]
  · rw [field r.salt.toNat (by simp), Nat.mod_eq_of_lt r.salt.isLt]
  · rw [field (keyCheck r.key) (by simp), keyCheck, Nat.mod_mod]

theorem exec_rngRead_of_starts {s : State} {n : Nat} {c : Cmd} (h : Starts s n 0x0700 c) :
    exec (.rngRead n) s = .next (s.answerRows c (c.arg 0) [row s.rng.bits] []) :=
  congrArg Host.Outcome.next (State.run_of_starts h _)

/-! ### The refill of a lane-slot buffer (R259) -/

/-- The tile once a refill has moved the block that the slot's core would make next into the slot's buffer. -/
def Tile.refilled (t : Tile) (slot : Nat) : Tile :=
  { t with rngTag := Sparse.set 0 t.rngTag slot (Sparse.get 0 t.rngNext slot), rngNext := Sparse.set 0 t.rngNext slot 0 }

theorem Tile.refilled_rngTag (t : Tile) (slot k : Nat) : Sparse.get 0 (t.refilled slot).rngTag k =
    if slot = k then Sparse.get 0 t.rngNext slot else Sparse.get 0 t.rngTag k := Sparse.get_set 0 t.rngTag slot k _

theorem Tile.refilled_rngNext (t : Tile) (slot k : Nat) : Sparse.get 0 (t.refilled slot).rngNext k =
    if slot = k then 0 else Sparse.get 0 t.rngNext k := Sparse.get_set 0 t.rngNext slot k 0

theorem exec_rngRefill {s : State} {t p slot : Nat} (hphys : s.phys t = some p)
    (hnext : Sparse.get 0 (s.tile p).rngNext slot ≠ 0) :
    exec (.rngRefill t slot) s = .next (s.setTile p ((s.tile p).refilled slot)) := by
  show execRngRefill t slot s = _
  simp only [execRngRefill, hphys, if_neg hnext]
  rfl

/-! ### The key change (R255) -/

/-- The tile with every lane-slot buffer empty and no block to be made next. -/
def Tile.unbuffered (t : Tile) : Tile := { t with rngTag := [], rngNext := [] }

/-- A key change empties the lane-slot buffers of every tile and leaves the rest of each tile alone. -/
theorem State.changeKey_tile {s : State} (h : Sparse.wf Tile.reset s.tiles = true) (seed salt : Word) (p : Nat) :
    (s.changeKey seed salt).tile p = (s.tile p).unbuffered :=
  Sparse.get_mapVals Tile.reset s.tiles Tile.unbuffered rfl h p

theorem exec_rngWrite_running {s : State} {n : Nat} {c : Cmd} (h : Starts s n 0x0701 c) (hrun : s.anyLaunch = true) :
    exec (.rngWrite n) s = .next (s.final n stConflict 0 []) :=
  congrArg Host.Outcome.next ((State.run_of_starts h _).trans (if_pos hrun))

theorem exec_rngWrite_idle {s : State} {n : Nat} {c : Cmd} (h : Starts s n 0x0701 c) (hidle : s.anyLaunch = false) :
    exec (.rngWrite n) s = .next (
      let e := s.changeKey (BitVec.ofNat 64 (c.arg 0)) (BitVec.ofNat 64 (c.arg 1))
      e.final n stOk 0 [e.rng.keyGen, keyCheck e.rng.key]) :=
  congrArg Host.Outcome.next ((State.run_of_starts h _).trans (if_neg (by simp [hidle])))

/-- Settles O38: the refill, the report and the key change each do what they say, since the record's fields lie apart, a
result is written past the journal, and rewriting the table of tiles rewrites every tile. -/
theorem randomService : Obligations.RandomService := by
  unfold Obligations.RandomService
  refine ⟨fun s t p slot hphys hnext => ?_, fun s n c h => ?_, fun s n c h hwf => ⟨fun hidle => ?_, fun hbusy => ?_⟩⟩
  · refine ⟨_, exec_rngRefill hphys hnext, ?_⟩
    rw [State.tile_setTile_same]
    refine ⟨?_, ?_, fun k hk => ⟨?_, ?_⟩, rfl, fun q hq => State.tile_setTile_ne s _ hq.symm, rfl⟩
    · rw [Tile.refilled_rngTag, if_pos rfl]
    · rw [Tile.refilled_rngNext, if_pos rfl]
    · rw [Tile.refilled_rngTag, if_neg hk.symm]
    · rw [Tile.refilled_rngNext, if_neg hk.symm]
  · exact ⟨reports_of_answerRows h (exec_rngRead_of_starts h), s.rng.fld_bits⟩
  · exact does_of_final (exec_rngWrite_idle h hidle) h.held ⟨rfl, State.changeKey_tile hwf _ _⟩
  · exact does_of_final (exec_rngWrite_running h hbusy) h.held rfl

end Sys2Proof.Machine
end

section
/-! The search for the spare that replaces a tile (R347): its one step, what it has found after the first `n` tiles, and that
this determines the answer. -/

namespace Sys2Proof.Machine

/-! ### One step of the search -/

/-- The better of the spare found so far and tile `q`. -/
def State.nearerSpare (s : State) (p : Nat) (m : Option Nat) (q : Nat) : Option Nat :=
  if (s.ent q).role ≠ roSpare then m
  else match m with
    | none => some q
    | some b => if moves p q < moves p b then some q else some b

theorem State.nearestSpare_eq_foldl (s : State) (p : Nat) :
    s.nearestSpare p = (List.range numPhys).foldl (s.nearerSpare p) none := rfl

section
variable {s : State} {p q b : Nat}

theorem State.nearerSpare_of_not_spare (m : Option Nat) (h : (s.ent q).role ≠ roSpare) : s.nearerSpare p m q = m :=
  if_pos h

theorem State.nearerSpare_none (h : (s.ent q).role = roSpare) : s.nearerSpare p none q = some q :=
  if_neg (not_not_intro h)

theorem State.nearerSpare_of_nearer (h : (s.ent q).role = roSpare) (hlt : moves p q < moves p b) :
    s.nearerSpare p (some b) q = some q :=
  (if_neg (not_not_intro h)).trans (if_pos hlt)

theorem State.nearerSpare_of_not_nearer (h : (s.ent q).role = roSpare) (hle : ¬ moves p q < moves p b) :
    s.nearerSpare p (some b) q = some b :=
  (if_neg (not_not_intro h)).trans (if_neg hle)

end

/-! ### What the search has found -/

/-- The choice of R347 among the tiles below `n`: the spare of fewest mesh moves, then of lowest index, or none. -/
inductive State.ChosenBelow (s : State) (p n : Nat) : Option Nat → Prop
  | none (hnone : ∀ r, r < n → (s.ent r).role ≠ roSpare) : s.ChosenBelow p n none
  | some {q : Nat} (hq : q < n) (hspare : (s.ent q).role = roSpare)
      (hbest : ∀ r, r < n → (s.ent r).role = roSpare → moves p q < moves p r ∨ (moves p q = moves p r ∧ q ≤ r)) :
      s.ChosenBelow p n (some q)

theorem State.chosenBelow_none_iff {s : State} {p n : Nat} :
    s.ChosenBelow p n none ↔ ∀ r, r < n → (s.ent r).role ≠ roSpare :=
  ⟨fun | .none hnone => hnone, .none⟩

theorem State.chosenBelow_some_iff {s : State} {p n q : Nat} :
    s.ChosenBelow p n (some q) ↔ (q < n ∧ (s.ent q).role = roSpare ∧
      ∀ r, r < n → (s.ent r).role = roSpare → moves p q < moves p r ∨ (moves p q = moves p r ∧ q ≤ r)) :=
  ⟨fun | .some hq hspare hbest => ⟨hq, hspare, hbest⟩, fun ⟨hq, hspare, hbest⟩ => .some hq hspare hbest⟩

/-- Tile `n` is looked at after every lower one, so it is taken only if it is strictly nearer: a tie stays with the lower
index. -/
theorem State.ChosenBelow.succ {s : State} {p n : Nat} {m : Option Nat} (h : s.ChosenBelow p n m) :
    s.ChosenBelow p (n + 1) (s.nearerSpare p m n) := by
  by_cases hn : (s.ent n).role = roSpare
  case neg =>
    rw [State.nearerSpare_of_not_spare m hn]
    cases h with
    | none hnone => exact .none (Nat.forall_lt_succ_right.mpr ⟨hnone, hn⟩)
    | some hb hspare hbest =>
      exact .some (Nat.lt_succ_of_lt hb) hspare (Nat.forall_lt_succ_right.mpr ⟨hbest, fun hr => absurd hr hn⟩)
  case pos =>
    cases h with
    | none hnone =>
      rw [State.nearerSpare_none hn]
      exact .some n.lt_succ_self hn (Nat.forall_lt_succ_right.mpr
        ⟨fun r hr hspare => absurd hspare (hnone r hr), fun _ => .inr ⟨rfl, Nat.le_refl _⟩⟩)
    | @some b hb hspare hbest =>
      by_cases hlt : moves p n < moves p b
      · rw [State.nearerSpare_of_nearer hn hlt]
        refine .some n.lt_succ_self hn (Nat.forall_lt_succ_right.mpr ⟨fun r hr hr' => .inl ?_, fun _ => .inr ⟨rfl, Nat.le_refl _⟩⟩)
        have := hbest r hr hr'
        omega
      · rw [State.nearerSpare_of_not_nearer hn hlt]
        refine .some (Nat.lt_succ_of_lt hb) hspare (Nat.forall_lt_succ_right.mpr ⟨hbest, fun _ => ?_⟩)
        omega

theorem State.chosenBelow_foldl (s : State) (p n : Nat) :
    s.ChosenBelow p n ((List.range n).foldl (s.nearerSpare p) none) := by
  induction n with
  | zero => exact .none fun r hr => absurd hr r.not_lt_zero
  | succ n ih =>
    rw [List.range_succ, List.foldl_append]
    exact ih.succ

/-- The order of R347 is total, so that at most one answer meets it. -/
theorem State.ChosenBelow.unique {s : State} {p n : Nat} {m m' : Option Nat} (h : s.ChosenBelow p n m)
    (h' : s.ChosenBelow p n m') : m = m' := by
  cases h with
  | none hnone =>
    cases h' with
    | none => rfl
    | some hb hspare => exact absurd hspare (hnone _ hb)
  | some ha hspare hbest =>
    cases h' with
    | none hnone => exact absurd hspare (hnone _ ha)
    | some hb hspare' hbest' =>
      have hab := hbest _ hb hspare'
      have hba := hbest' _ ha hspare
      exact congrArg Option.some (by omega)

theorem State.nearestSpare_eq_iff (s : State) (p : Nat) (m : Option Nat) :
    s.nearestSpare p = m ↔ s.ChosenBelow p numPhys m := by
  have found : s.ChosenBelow p numPhys (s.nearestSpare p) := s.chosenBelow_foldl p numPhys
  exact ⟨fun h => h ▸ found, found.unique⟩

/-- Settles O46: by induction on the tiles looked at, the search holds the choice of R347 among them, and only one answer is
that choice. -/
theorem nearestSpareChosen : Obligations.NearestSpareChosen := by
  unfold Obligations.NearestSpareChosen
  exact fun s p => ⟨fun q => (s.nearestSpare_eq_iff p (some q)).trans State.chosenBelow_some_iff,
    (s.nearestSpare_eq_iff p none).trans State.chosenBelow_none_iff⟩

end Sys2Proof.Machine
end
